-- ==== Sys2Proof/Word.lean ====
section
/-! DEFINITION. The word types of the panel: 64-bit registers and parameter words, bytes, and packed
payload words. Byte order is little-endian throughout (00_scope.md, Notation). -/

namespace Sys2Proof

/-- A 64-bit register, parameter word or panel address. -/
abbrev W64 := BitVec 64

/-- A binary32 value, or any 32-bit word. -/
abbrev W32 := BitVec 32

/-- A byte of memory. -/
abbrev Byte := BitVec 8

/-- The 1,024 bytes of a vector tile register (R133). -/
abbrev TileW := BitVec 8192

/-- The 1,024 bits of a vector mask register, or the 128 bytes of a cache line. -/
abbrev W1024 := BitVec 1024

/-- The 32-byte payload of a packet (R245). -/
abbrev W256 := BitVec 256

end Sys2Proof
end

