-- ==== Sys2Proof/Syntax.lean ====
section
/-! DEFINITION. The commands of the panel: one constructor for each row of spec/opcode_table.json, in the
table's order. The table gives no operands; each constructor carries what its rule needs to name: the core
site, die, block, router or port the step happens at, the fields of the instruction or of the host's command
packet, and, where the step is a hardware error or a measurement, what was observed. -/

namespace Sys2Proof

/-- Where a register lies: the areas of register space (R128, R215), the cache control pages of space 0x5
(R229) and BAR0 of a host function (R282). `off` is a byte offset in the unit's page. -/
inductive RegAddr where
  | core (site off : Nat)
  | spine (die off : Nat)
  | base (unit off : Nat)
  | slicectl (stack off : Nat)
  | photonic (block off : Nat)
  | dome (index off : Nat)
  | cache (die off : Nat)
  | bar (port func off : Nat)
  deriving DecidableEq, Repr

/-- A hardware upset inside the MAC array at the step that meets it: an error `delta`, in units of 2^-32,
in the block sum of column `col` and block `blk` (R66), or a parity error of an accumulator entry (R68). -/
inductive MacUpset where
  | clean
  | sum (col blk : Nat) (delta : Int)
  | parity
  deriving DecidableEq, Repr

/-- What arrives: a packet, VPM link or channel by its number, and whether it passes its CRC-32C (R245, R351). -/
structure Arrival where
  n : Nat
  crcOk : Bool
  deriving DecidableEq, Repr

/-- A host command packet of R289: the control word and P0–P6. -/
structure CmdPkt where
  w0 : W64
  p0 : W64
  p1 : W64
  p2 : W64
  p3 : W64
  p4 : W64
  p5 : W64
  p6 : W64
  deriving DecidableEq, Repr

/-- A die or stack that carries temperature sensors (R360). -/
inductive SensorUnit where
  | compute (d : Nat)
  | base (u : Nat)
  | photonic (b : Nat)
  | stack (n : Nat)
  | dome (i : Nat)
  deriving DecidableEq, Repr

/-- What an offline retest is run on (R405). -/
inductive RetestUnit where
  | site (g : Nat)
  | die (d : Nat)
  deriving DecidableEq, Repr

/-- A unit found failed by the start-up tests (R434). -/
inductive TestFail where
  | site (g : Nat)
  | row (g bank row : Nat)
  | die (d : Nat)
  | baseDie (u : Nat)
  | slice (k : Nat)
  | lane (router port lane : Nat)
  | engine (b : Nat)
  | domeDie (i : Nat)
  deriving DecidableEq, Repr

/-- An IEEE 1149.1 operation of the external test port (R433). -/
inductive TapOp where
  | bypass (tdi : Bool)
  | idcode
  | other (ir : Nat) (tdi : Bool)
  deriving DecidableEq, Repr

inductive Instr where
  | regWrite (a : RegAddr) (v : W64)
  | nop (g : Nat)
  | halt (g : Nat)
  | epoch (g : Nat)
  | fence (g : Nat) (x : BitVec 9)
  | add (g : Nat) (a b c : BitVec 5)
  | sub (g : Nat) (a b c : BitVec 5)
  | and (g : Nat) (a b c : BitVec 5)
  | or (g : Nat) (a b c : BitVec 5)
  | xor (g : Nat) (a b c : BitVec 5)
  | shl (g : Nat) (a b c : BitVec 5)
  | shr (g : Nat) (a b c : BitVec 5)
  | sra (g : Nat) (a b c : BitVec 5)
  | mul (g : Nat) (a b c : BitVec 5)
  | mulhu (g : Nat) (a b c : BitVec 5)
  | min (g : Nat) (a b c : BitVec 5)
  | max (g : Nat) (a b c : BitVec 5)
  | minu (g : Nat) (a b c : BitVec 5)
  | maxu (g : Nat) (a b c : BitVec 5)
  | slt (g : Nat) (a b c : BitVec 5)
  | sltu (g : Nat) (a b c : BitVec 5)
  | addi (g : Nat) (a b : BitVec 5) (imm : W32)
  | andi (g : Nat) (a b : BitVec 5) (imm : W32)
  | ori (g : Nat) (a b : BitVec 5) (imm : W32)
  | xori (g : Nat) (a b : BitVec 5) (imm : W32)
  | shli (g : Nat) (a b : BitVec 5) (imm : W32)
  | shri (g : Nat) (a b : BitVec 5) (imm : W32)
  | srai (g : Nat) (a b : BitVec 5) (imm : W32)
  | muli (g : Nat) (a b : BitVec 5) (imm : W32)
  | slti (g : Nat) (a b : BitVec 5) (imm : W32)
  | sltiu (g : Nat) (a b : BitVec 5) (imm : W32)
  | li (g : Nat) (a : BitVec 5) (imm : W32)
  | lih (g : Nat) (a b : BitVec 5) (imm : W32)
  | beq (g : Nat) (a b : BitVec 5) (imm : W32)
  | bne (g : Nat) (a b : BitVec 5) (imm : W32)
  | blt (g : Nat) (a b : BitVec 5) (imm : W32)
  | bge (g : Nat) (a b : BitVec 5) (imm : W32)
  | bltu (g : Nat) (a b : BitVec 5) (imm : W32)
  | bgeu (g : Nat) (a b : BitVec 5) (imm : W32)
  | jal (g : Nat) (a : BitVec 5) (imm : W32)
  | jalr (g : Nat) (a b : BitVec 5) (imm : W32)
  | ld (g : Nat) (a b : BitVec 5) (x : BitVec 9) (imm : W32)
  | st (g : Nat) (a b : BitVec 5) (x : BitVec 9) (imm : W32)
  | issueMac (g : Nat) (b : BitVec 5) (imm : W32)
  | issueEdge (g : Nat) (b : BitVec 5) (imm : W32)
  | issueDma (g : Nat) (b : BitVec 5) (imm : W32)
  | wait (g : Nat) (b : BitVec 5) (x : BitVec 9) (imm : W32)
  | ksub (g : Nat) (b : BitVec 5) (x : BitVec 9) (imm : W32)
  | krd (g : Nat) (a : BitVec 5) (x : BitVec 9)
  | signal (g : Nat) (b : BitVec 5) (x : BitVec 9) (imm : W32)
  | csrr (g : Nat) (a : BitVec 5) (imm : W32)
  | csrw (g : Nat) (b : BitVec 5) (imm : W32)
  | reservedOpcode (g : Nat) (w : W64)
  | seqStallEnd (g : Nat)
  | seqStart (g : Nat)
  | seqStop (g : Nat)
  | seqResume (g : Nat)
  | seqRstart (g : Nat)
  | recoveryClear (g : Nat)
  | coreReset (g : Nat)
  | macDescLeaveQueue (g : Nat)
  | macPrescanDone (g : Nat)
  | macStreamStart (g : Nat)
  | macRowLand (g : Nat) (e : MacUpset)
  | residueReplayLand (g : Nat) (e : MacUpset)
  | haloCorrection (g : Nat) (e : MacUpset)
  | driftEvaluation (g : Nat)
  | macReadout (g : Nat) (e : MacUpset)
  | macDescComplete (g : Nat)
  | finderCheck (g : Nat) (e : MacUpset)
  | pwPop (g : Nat)
  | injectResidue (g : Nat)
  | injectFinder (g : Nat)
  | vectorIssue (g : Nat) (w : W64)
  | vld (g : Nat)
  | vlds (g : Nat)
  | vst (g : Nat)
  | vsts (g : Nat)
  | vmld (g : Nat)
  | vmst (g : Nat)
  | vchld (g : Nat)
  | vmov (g : Nat)
  | vadd (g : Nat)
  | vsub (g : Nat)
  | vmul (g : Nat)
  | vfma (g : Nat)
  | vdiv (g : Nat)
  | vmin (g : Nat)
  | vmax (g : Nat)
  | vabs (g : Nat)
  | vneg (g : Nat)
  | vsqrt (g : Nat)
  | vrcp (g : Nat)
  | vrsqrt (g : Nat)
  | vexp (g : Nat)
  | vlog (g : Nat)
  | vtanh (g : Nat)
  | vsig (g : Nat)
  | vgelu (g : Nat)
  | vcmp (g : Nat)
  | vsel (g : Nat)
  | vand (g : Nat)
  | vor (g : Nat)
  | vxor (g : Nat)
  | vnot (g : Nat)
  | vshl (g : Nat)
  | vshr (g : Nat)
  | vsra (g : Nat)
  | vmop (g : Nat)
  | viota (g : Nat)
  | vtrn (g : Nat)
  | vred (g : Nat)
  | vsegred (g : Nat)
  | vsegscan (g : Nat)
  | vsort (g : Nat)
  | vcmpr (g : Nat)
  | vcvt (g : Nat)
  | vqnt (g : Nat)
  | vdqnt (g : Nat)
  | vchain (g : Nat)
  | vmark (g : Nat)
  | walk (g : Nat)
  | gather (g : Nat)
  | dedup (g : Nat)
  | isect (g : Nat)
  | union (g : Nat)
  | diff (g : Nat)
  | sample (g : Nat)
  | segmask (g : Nat)
  | scatter (g : Nat)
  | hist (g : Nat)
  | sort (g : Nat)
  | gatherComplete (g op : Nat)
  | scatterComplete (g op : Nat)
  | edgeSmapWrite (g : Nat) (v : W64)
  | get (g : Nat)
  | put (g : Nat)
  | dmaFill (g : Nat)
  | atomic (g : Nat)
  | mcastRow (g : Nat)
  | mcastCol (g : Nat)
  | cinv (g : Nat)
  | rdreq (n : Nat)
  | rdrsp (n : Nat)
  | wr (n : Nat)
  | hwr (n : Nat)
  | mcast (n : Arrival)
  | pktAck (n : Nat)
  | atrsp (n : Nat)
  | pktSignal (n : Nat)
  | refuse (n : Nat)
  | atomAdd (n : Nat)
  | atomFadd (n : Nat)
  | atomMin (n : Nat)
  | atomMinu (n : Nat)
  | atomFmin (n : Nat)
  | atomMax (n : Nat)
  | atomMaxu (n : Nat)
  | atomFmax (n : Nat)
  | atomSwap (n : Nat)
  | atomCas (n : Nat)
  | atomCinc (n : Nat)
  | packetForward (n : Nat) (crcOk : Bool)
  | packetInject (r part : Nat)
  | escMove (n : Arrival)
  | occAdvertise (b : Nat)
  | transitPacket (n : Nat) (crcOk : Bool)
  | linkReplay (r p : Nat) (crcOk : Bool)
  | linkRetrain (r p : Nat)
  | linkDown (r p : Nat)
  | linkDownReport (r p : Nat)
  | replayReportTimeout (r p : Nat)
  | laneFail (r p lane : Nat)
  | laneSpareSwitch (r p lane : Nat)
  | wavelengthFail (b t plane : Nat)
  | wavelengthReport (b t plane : Nat)
  | waveReportTimeout (b t plane : Nat)
  | wavelengthSpareEnable (b t plane : Nat)
  | txTimeout (srouter sep tag : Nat)
  | destWriteTimeout (srouter sep tag drouter dep : Nat)
  | tagRelease (srouter sep tag : Nat)
  | routeUpdate
  | escDrainEnd
  | phRetune (b : Nat)
  | invAll (d : Nat)
  | invPart (d part : Nat)
  | cacheInvDone (d : Nat)
  | combineWindowEnd (n : Nat)
  | hbmRefresh (k : Nat)
  | hbmPatrolScrub (k : Nat)
  | ownerWrite (g bank : Nat) (v : W64)
  | scrubWriteback (g : Nat)
  | surveyRowStart (g : Nat)
  | surveyRowEnd (g : Nat) (marchOk : Bool)
  | surveyRowTimeout (g : Nat)
  | surveyRelease (g : Nat)
  | migrateGo (g bank entry lrow : Nat) (source : Bool)
  | migrationDone (g : Nat)
  | spMapSelect (g bank entry : Nat)
  | spMapWrite (g bank entry state lrow : Nat)
  | ceClear (g : Nat)
  | zeroise (g : Nat)
  | zeroiseDone (g : Nat)
  | sensorSample (u : SensorUnit) (t : List Int)
  | dieHoldRelease (d : Nat)
  | dieHoldTrip (d : Nat)
  | sensorModelTimeout (u : SensorUnit)
  | throttleStep (region : Nat)
  | flowRecompute
  | thermalHoldDrained
  | thermalResume
  | precoolPlan
  | prewarmStart (part : Nat)
  | dewEnter (d : Nat)
  | thermalCycleCount
  | refLost (die : Nat) (refB : Bool)
  | refRestore (die : Nat) (refB : Bool)
  | holdoverExit (die : Nat) (refB : Bool)
  | clkRowStop (d : Nat) (south : Bool)
  | clkRowWake (d : Nat) (south : Bool)
  | droopStretch (d : Nat) (south undervoltage : Bool)
  | freqArm (die change : Nat) (targets : List Nat)
  | freqAck (die : Nat)
  | freqCommitDeadline
  | freqCommit (die : Nat)
  | freqSwitch (die : Nat)
  | pclSetV (m ch mv : Nat)
  | pclEnable (m ch : Nat) (on : Bool)
  | pclRetain (m target mv : Nat) (region enter : Bool)
  | pclSetIlim (m ch lim : Nat)
  | pclRead (m ch : Nat)
  | pclClaim (m link : Nat)
  | pclHeartbeat (m link : Nat)
  | pclRelease (m link : Nat)
  | pclAck (link : Arrival) (seq : Nat)
  | pclNak (link : Arrival) (seq reason : Nat)
  | pclTelem (link : Arrival) (region : Nat) (entries : List W32)
  | pclEvent (ch : Arrival) (kind : Nat)
  | pclStatus (ch : Arrival) (mv : Nat) (entry : W32)
  | pclVheart (link : Arrival) (mv ma10 : Nat)
  | pclResend (link seq : Nat)
  | pclRetrain (link : Nat) (ok : Bool)
  | pclClaimTimeout (link : Nat)
  | pclReclaim (link : Nat)
  | channelTrip (ch : Nat)
  | blockDark (b : Nat)
  | vpmInputFault
  | accountingTick
  | accountingWindow (part : Nat)
  | commandAdmit (part : Nat)
  | runComplete (h : W32)
  | commandComplete (h : W32)
  | runTimeout (h : W32)
  | partCreateDone (part : Nat)
  | partDestroyDone (part : Nat)
  | sqTail (p f ring : Nat) (v : W64)
  | rqHead (p f : Nat) (v : W64)
  | cqHead (p f : Nat) (v : W64)
  | logHead (p f : Nat) (v : W64)
  | ringCfgWrite (p f off : Nat) (v : W64)
  | ringReset (p f : Nat)
  | commandFetch (p : Nat)
  | cqInterrupt (p f : Nat)
  | hostLinkUp (p : Nat)
  | hostLinkDown (p : Nat)
  | functionLevelReset (p f : Nat)
  | orphanGraceExpire (part : Nat)
  | hostNop (p f ring : Nat) (q : CmdPkt)
  | queryCap (p f ring : Nat) (q : CmdPkt)
  | queryPart (p f ring : Nat) (q : CmdPkt)
  | queryHandle (p f ring : Nat) (q : CmdPkt)
  | queryOffered (p f ring : Nat) (q : CmdPkt)
  | bind (p f ring : Nat) (q : CmdPkt)
  | unbind (p f ring : Nat) (q : CmdPkt)
  | adminChallenge (p f ring : Nat) (q : CmdPkt)
  | adminRequest (p f ring : Nat) (q : CmdPkt)
  | adminEnrol (p f ring : Nat) (q : CmdPkt)
  | adminRelease (p f ring : Nat) (q : CmdPkt)
  | partCreate (p f ring : Nat) (q : CmdPkt)
  | partResize (p f ring : Nat) (q : CmdPkt)
  | partDestroy (p f ring : Nat) (q : CmdPkt)
  | setQuota (p f ring : Nat) (q : CmdPkt)
  | setOrphan (p f ring : Nat) (q : CmdPkt)
  | pause (p f ring : Nat) (q : CmdPkt)
  | resume (p f ring : Nat) (q : CmdPkt)
  | ephemeris (p f ring : Nat) (q : CmdPkt)
  | memAlloc (p f ring : Nat) (q : CmdPkt)
  | memFree (p f ring : Nat) (q : CmdPkt)
  | copyIn (p f ring : Nat) (q : CmdPkt)
  | copyOut (p f ring : Nat) (q : CmdPkt)
  | fill (p f ring : Nat) (q : CmdPkt)
  | checkpoint (p f ring : Nat) (q : CmdPkt)
  | check (p f ring : Nat) (q : CmdPkt)
  | run (p f ring : Nat) (q : CmdPkt)
  | abort (p f ring : Nat) (q : CmdPkt)
  | setReg (p f ring : Nat) (q : CmdPkt)
  | fwUpdate (p f ring : Nat) (q : CmdPkt)
  | fwImageStaged (h : W32)
  | fwActivate
  | debugChallenge (p f ring : Nat) (q : CmdPkt)
  | debugUnlock (p f ring : Nat) (q : CmdPkt)
  | debugRelock (p f ring : Nat) (q : CmdPkt)
  | logRing (p f ring : Nat) (q : CmdPkt)
  | setCeiling (p f ring : Nat) (q : CmdPkt)
  | hostReservedOpcode (p f ring : Nat) (q : CmdPkt)
  | errorHandlingStart
  | stormEnd
  | recoveryDrainEnd
  | recoveryRestoreDone
  | epochCommit (h : W32)
  | mirrorCopyDone (g : Nat)
  | ctrlHeartbeat (m : Nat)
  | controllerTakeover (m : Nat)
  | mgmtAgentLost (die : Nat) (netA netB : Bool)
  | seqWatchdog (g : Nat)
  | healthScoreHourly
  | scoreExpulsion (d : Nat)
  | retestStart (u : RetestUnit)
  | retestDone (u : RetestUnit) (pass : Bool)
  | baseDieResetDone (u : Nat) (ok : Bool)
  | logCoalesceFlush (source loc : Nat)
  | progressReport
  | coldStart
  | pgoodAssert (p : Nat)
  | perstDeassert (p : Nat)
  | perstAssert (p : Nat)
  | romBoot (m : Nat)
  | pendingImageTimeout (m : Nat)
  | romRecoveryImage (m : Nat) (chunk : List Byte) (last : Bool)
  | halfPowerUp (m : Nat)
  | chainTest (m : Nat) (fails : List TestFail)
  | almanacMerge
  | linkTrain
  | workMap
  | soleTakeover (m : Nat)
  | controllerReturn (m : Nat)
  | controllerRestart (m : Nat)
  | controllerRestartDone (m : Nat)
  | getVersion (p : Nat)
  | getCapabilities (p : Nat)
  | negotiateAlgorithms (p : Nat)
  | getDigests (p : Nat)
  | getCertificate (p slot off len : Nat)
  | challenge (p : Nat) (nonce : W256)
  | getMeasurements (p index : Nat) (nonce : W256)
  | spdmUnsupported (p code : Nat)
  | facHeartbeat (ch : Nat) (alive : BitVec 8) (v : W64)
  | facCeiling (ch : Nat) (alive : BitVec 8) (v : W32)
  | facFlow (ch : Nat) (alive : BitVec 8) (v : BitVec 16)
  | facInletTemp (ch : Nat) (alive : BitVec 8) (v : W32)
  | facVpmStatus (ch : Nat) (alive : BitVec 8) (v : W32)
  | facEstop (ch : Nat) (alive : BitVec 8) (v : BitVec 8)
  | facFrameCrcError (ch : Nat)
  | facFrameMalformed (ch : Nat) (alive : BitVec 8)
  | facChannelDown (ch : Nat)
  | facilitySilent
  | silentHoldEnd
  | panelHeartbeat
  | panelStatus
  | precool
  | chkGo (u : Nat)
  | chkAbort (u : Nat)
  | chkScanDone (u : Nat)
  | blockRestore (b : Nat)
  | wavelengthRetest (b t plane : Nat) (pass : Bool)
  | combSourceFail (b : Nat)
  | securityAlarm
  | routerLogicError (u : Nat)
  | tapAccess (op : TapOp)
  | halfIsolation (isolate : Bool)
  deriving DecidableEq, Repr

end Sys2Proof
end

