-- ==== Sys2Proof/Config.lean ====
section
/-! DEFINITION. What the manual leaves open: values nothing in Lean can see. Each is a constant without a
body, so a claim about it holds whatever it is. -/

namespace Sys2Proof

/-- The n-th value the manual leaves open (log entry 3): an argument of a meaning takes the value at the
model's own counter `State.free` and advances it. -/
opaque Config.freeW64 : Nat → W64

/-- A sampled SECDED syndrome of R211: the code's check matrix is not given, so the syndrome of a corrected
or uncorrectable read is open (log entry 3). -/
opaque Config.syndrome : Nat → BitVec 8

/-- A value of a transcendental operation of R144 within its stated error: the choice, from 0, among the
results the bound allows, by operation and operand. -/
opaque Config.ulpPick : Nat → W32 → Nat

/-- The outcome of an Ed25519 (1) or ML-DSA-65 (2) signature verification, by algorithm, key hash, message
digest and signature bytes as one number (log entry 30). -/
opaque Config.sigVerify : Nat → BitVec 384 → BitVec 384 → Nat → Bool

/-- A fixed document of the part by kind and slot, such as a certificate or a capability table (log entry 31). -/
opaque Config.document : Nat → Nat → List Byte

/-- The Ed25519 Alias public key derived from an image digest, its SVN, the fuse count and the debug state (R441):
the unique device secret behind it is not readable (log entry 30). -/
opaque Config.aliasKey : BitVec 384 → Nat → Nat → Nat → W256

/-- The Ed25519 DeviceID public key (R441). -/
opaque Config.deviceKey : W256

/-- The debug root hash fused for an algorithm (1 Ed25519, 2 ML-DSA-65) in a slot (R448). -/
opaque Config.rootHash : Nat → Nat → BitVec 384

/-- The root key hash fused for an algorithm (1 Ed25519, 2 ML-DSA-65) in a slot of the image roots (R438; log entry 30). -/
opaque Config.imageRoot : Nat → Nat → BitVec 384

/-- Packets that a router input's buffer holds, by buffer: 0 REQ, 1 RSP, 2 BULK, 3 and 4 the two classes of ESC (R259): the
manual gives no depth (log entry 67). -/
opaque Config.bufferDepth : Nat → Nat

/-- Bytes of an HBM row, the unit of post-package repair under JESD270-4 (R222): the manual does not repeat it (log entry
69). -/
opaque Config.hbmRowBytes : Nat

/-- Terhild's assigned PCI-SIG vendor identifier (R280): the manual does not give its value (log entry 71). -/
opaque Config.pciVendor : BitVec 16

/-- SHA-384 of the boot ROM (R445). -/
opaque Config.romDigest : BitVec 384

/-- The factory-measured voltage table of a core row (2·die + row), in mV by frequency code (R346). -/
opaque Config.rowVolt : Nat → Nat → Nat

end Sys2Proof
end

