-- ==== Sys2Proof/Machine/Tab.lean ====
section
/-! DEFINITION. Sparse tables keyed by Nat: the plain data that register files, maps and the lists of units
of the panel are held in. Keys rise strictly; a key that is not listed has its reader's default. -/

namespace Sys2Proof.Machine

/-- A sparse table: (key, value) pairs with strictly rising keys. -/
abbrev Tab (α : Type) := List (Nat × α)

/-- The value listed at `k`, if any. -/
def Tab.find {α : Type} (t : Tab α) (k : Nat) : Option α :=
  match t with
  | [] => none
  | (j, v) :: r => if j = k then some v else if k < j then none else Tab.find r k

/-- The value at `k`, or `d` where none is listed. -/
def Tab.getD {α : Type} (t : Tab α) (k : Nat) (d : α) : α := (t.find k).getD d

/-- `t` with `v` listed at `k`. -/
def Tab.set {α : Type} (t : Tab α) (k : Nat) (v : α) : Tab α :=
  match t with
  | [] => [(k, v)]
  | (j, w) :: r =>
    if j = k then (k, v) :: r else if k < j then (k, v) :: (j, w) :: r else (j, w) :: Tab.set r k v

/-- `t` with nothing listed at `k`. -/
def Tab.erase {α : Type} (t : Tab α) (k : Nat) : Tab α := t.filter (fun e => e.1 != k)

/-- `t` without the keys from `lo` up to `hi` (not included). -/
def Tab.eraseRange {α : Type} (t : Tab α) (lo hi : Nat) : Tab α :=
  t.filter (fun e => e.1 < lo || hi ≤ e.1)

/-- The entries of `t` whose keys lie from `lo` up to `hi` (not included). -/
def Tab.range {α : Type} (t : Tab α) (lo hi : Nat) : Tab α :=
  t.filter (fun e => lo ≤ e.1 && e.1 < hi)

/-- `t` with the keys from `lo` up to `hi` (not included) replaced by the entries `l`, which lie there. -/
def Tab.replaceRange {α : Type} (t : Tab α) (lo hi : Nat) (l : Tab α) : Tab α :=
  l.foldl (fun t e => t.set e.1 e.2) (t.eraseRange lo hi)

/-- `t` with `f` applied to every listed value. -/
def Tab.mapVals {α : Type} (t : Tab α) (f : Nat → α → α) : Tab α := t.map (fun e => (e.1, f e.1 e.2))

/-- Keys rise strictly. -/
def Tab.sorted {α : Type} (t : Tab α) : Bool :=
  match t with
  | [] => true
  | (j, _) :: r => r.all (fun e => j < e.1) && Tab.sorted r

end Sys2Proof.Machine
end

