-- ==== Sys2Proof/Machine/Registers.lean ====
section
/-! DEFINITION. The register tables of the manual as data: for every register its offset in its page and, for
every field, its bits, access code (R9), class (R10), reset value and whether only firmware may write it
(R129); and for every field the name the model reads and writes it by. A reset value that the manual
leaves to the part, to the Almanac or to fuses stands as 0 here and is computed where the register is read. -/

namespace Sys2Proof.Machine

/-- Access codes of R9. -/
inductive Access where
  | rw | ro | wo | w1c | w1s | rsv
  deriving DecidableEq, Repr

/-- Register classes of R10. -/
inductive RegClass where
  | live | staged | locked
  deriving DecidableEq, Repr

/-- One row of a register table. -/
structure FieldDef where
  hi : Nat
  lo : Nat
  acc : Access
  cls : RegClass
  rst : Nat
  fw : Bool
  deriving DecidableEq, Repr

/-- A register: its offset in the unit's page and its fields, from high bits to low. -/
structure RegDef where
  off : Nat
  fields : List FieldDef
  deriving DecidableEq, Repr

/-- A named field of a register: the register's offset, the field's bits, and the reset word of the
whole register. -/
structure Fld where
  off : Nat
  hi : Nat
  lo : Nat
  rst : Nat
  deriving DecidableEq, Repr

/-- The bits a field covers, as a mask. -/
def fieldMask (hi lo : Nat) : Nat := (2 ^ (hi + 1 - lo) - 1) * 2 ^ lo

/-- The word a register holds after reset. -/
def RegDef.reset (r : RegDef) : Nat := r.fields.foldl (fun a f => a + f.rst * 2 ^ f.lo) 0

/-- MAC_STATUS, R64 (core). -/
def MAC_STATUS : RegDef := ⟨0x000, [
  ⟨63, 16, .rsv, .live, 0x0, false⟩,
  ⟨15, 8, .ro, .live, 0x0, false⟩,
  ⟨7, 4, .rsv, .live, 0x0, false⟩,
  ⟨3, 3, .w1c, .live, 0x0, false⟩,
  ⟨2, 2, .ro, .live, 0x0, false⟩,
  ⟨1, 1, .ro, .live, 0x0, false⟩,
  ⟨0, 0, .ro, .live, 0x0, false⟩]⟩
def MAC_STATUS_QUEUED : Fld := ⟨0x000, 15, 8, 0x0⟩
def MAC_STATUS_CFG_LOCKED_WR : Fld := ⟨0x000, 3, 3, 0x0⟩
def MAC_STATUS_WBUF1_VALID : Fld := ⟨0x000, 2, 2, 0x0⟩
def MAC_STATUS_WBUF0_VALID : Fld := ⟨0x000, 1, 1, 0x0⟩
def MAC_STATUS_BUSY : Fld := ⟨0x000, 0, 0, 0x0⟩
/-- MAC_CFG, R64 (core). -/
def MAC_CFG : RegDef := ⟨0x008, [
  ⟨63, 16, .rsv, .live, 0x0, false⟩,
  ⟨15, 8, .rw, .live, 0xFF, true⟩,
  ⟨7, 4, .rsv, .live, 0x0, false⟩,
  ⟨3, 0, .rw, .locked, 0xF, false⟩]⟩
def MAC_CFG_DUTY : Fld := ⟨0x008, 15, 8, 0xFF0F⟩
def MAC_CFG_QDEPTH : Fld := ⟨0x008, 3, 0, 0xFF0F⟩
/-- MAC_SEED, R64 (core). -/
def MAC_SEED : RegDef := ⟨0x010, [
  ⟨63, 0, .rw, .staged, 0x1, false⟩]⟩
def MAC_SEED_W : Fld := ⟨0x010, 63, 0, 0x1⟩
/-- MAC_BUSY_CYCLES, R64 (core). -/
def MAC_BUSY_CYCLES : RegDef := ⟨0x018, [
  ⟨63, 0, .ro, .live, 0x0, false⟩]⟩
def MAC_BUSY_CYCLES_W : Fld := ⟨0x018, 63, 0, 0x0⟩
/-- MAC_HALO_STALL, R64 (core). -/
def MAC_HALO_STALL : RegDef := ⟨0x020, [
  ⟨63, 0, .ro, .live, 0x0, false⟩]⟩
def MAC_HALO_STALL_W : Fld := ⟨0x020, 63, 0, 0x0⟩
/-- RES_COUNT, R91 (core). -/
def RES_COUNT : RegDef := ⟨0x100, [
  ⟨63, 40, .ro, .live, 0x0, false⟩,
  ⟨39, 16, .ro, .live, 0x0, false⟩,
  ⟨15, 0, .ro, .live, 0x0, false⟩]⟩
def RES_COUNT_REPLAYED : Fld := ⟨0x100, 63, 40, 0x0⟩
def RES_COUNT_FAILED : Fld := ⟨0x100, 39, 16, 0x0⟩
def RES_COUNT_ACC_PARITY : Fld := ⟨0x100, 15, 0, 0x0⟩
/-- RES_LAST, R91 (core). -/
def RES_LAST : RegDef := ⟨0x108, [
  ⟨63, 32, .ro, .live, 0x0, false⟩,
  ⟨31, 22, .ro, .live, 0x0, false⟩,
  ⟨21, 14, .ro, .live, 0x0, false⟩,
  ⟨13, 11, .ro, .live, 0x0, false⟩,
  ⟨10, 8, .ro, .live, 0x0, false⟩,
  ⟨7, 5, .ro, .live, 0x0, false⟩,
  ⟨4, 0, .rsv, .live, 0x0, false⟩]⟩
def RES_LAST_OPID : Fld := ⟨0x108, 63, 32, 0x0⟩
def RES_LAST_ROW : Fld := ⟨0x108, 31, 22, 0x0⟩
def RES_LAST_COL : Fld := ⟨0x108, 21, 14, 0x0⟩
def RES_LAST_BLOCK : Fld := ⟨0x108, 13, 11, 0x0⟩
def RES_LAST_EXPECTED : Fld := ⟨0x108, 10, 8, 0x0⟩
def RES_LAST_OBSERVED : Fld := ⟨0x108, 7, 5, 0x0⟩
/-- FINDER_CFG, R91 (core). -/
def FINDER_CFG : RegDef := ⟨0x120, [
  ⟨63, 12, .rsv, .live, 0x0, false⟩,
  ⟨11, 8, .rw, .staged, 0xC, false⟩,
  ⟨7, 5, .rsv, .live, 0x0, false⟩,
  ⟨4, 4, .rw, .live, 0x0, true⟩,
  ⟨3, 0, .rw, .staged, 0x8, false⟩]⟩
def FINDER_CFG_DRIFT_LOG2 : Fld := ⟨0x120, 11, 8, 0xC08⟩
def FINDER_CFG_PROBATION : Fld := ⟨0x120, 4, 4, 0xC08⟩
def FINDER_CFG_RATE_LOG2 : Fld := ⟨0x120, 3, 0, 0xC08⟩
/-- FINDER_SEED, R91 (core). -/
def FINDER_SEED : RegDef := ⟨0x128, [
  ⟨63, 0, .rw, .staged, 0x1, false⟩]⟩
def FINDER_SEED_W : Fld := ⟨0x128, 63, 0, 0x1⟩
/-- FINDER_STATUS, R91 (core). -/
def FINDER_STATUS : RegDef := ⟨0x130, [
  ⟨63, 32, .ro, .live, 0x0, false⟩,
  ⟨31, 16, .ro, .live, 0x0, false⟩,
  ⟨15, 2, .rsv, .live, 0x0, false⟩,
  ⟨1, 1, .ro, .live, 0x0, false⟩,
  ⟨0, 0, .ro, .live, 0x0, false⟩]⟩
def FINDER_STATUS_MISMATCH : Fld := ⟨0x130, 63, 32, 0x0⟩
def FINDER_STATUS_BACKLOG : Fld := ⟨0x130, 31, 16, 0x0⟩
def FINDER_STATUS_PROBATION_ACTIVE : Fld := ⟨0x130, 1, 1, 0x0⟩
def FINDER_STATUS_BUSY : Fld := ⟨0x130, 0, 0, 0x0⟩
/-- FINDER_SAMPLES, R91 (core). -/
def FINDER_SAMPLES : RegDef := ⟨0x138, [
  ⟨63, 0, .ro, .live, 0x0, false⟩]⟩
def FINDER_SAMPLES_W : Fld := ⟨0x138, 63, 0, 0x0⟩
/-- FINDER_STALL, R91 (core). -/
def FINDER_STALL : RegDef := ⟨0x140, [
  ⟨63, 0, .ro, .live, 0x0, false⟩]⟩
def FINDER_STALL_W : Fld := ⟨0x140, 63, 0, 0x0⟩
/-- FINDER_LAST, R91 (core). -/
def FINDER_LAST : RegDef := ⟨0x148, [
  ⟨63, 32, .ro, .live, 0x0, false⟩,
  ⟨31, 18, .ro, .live, 0x0, false⟩,
  ⟨17, 17, .ro, .live, 0x0, false⟩,
  ⟨16, 0, .rsv, .live, 0x0, false⟩]⟩
def FINDER_LAST_OPID : Fld := ⟨0x148, 63, 32, 0x0⟩
def FINDER_LAST_ENTRY : Fld := ⟨0x148, 31, 18, 0x0⟩
def FINDER_LAST_STAGE : Fld := ⟨0x148, 17, 17, 0x0⟩
/-- INJECT, R91 (core). -/
def INJECT : RegDef := ⟨0x150, [
  ⟨63, 2, .rsv, .live, 0x0, true⟩,
  ⟨1, 1, .wo, .live, 0x0, true⟩,
  ⟨0, 0, .wo, .live, 0x0, true⟩]⟩
def INJECT_RESIDUE : Fld := ⟨0x150, 1, 1, 0x0⟩
def INJECT_FINDER : Fld := ⟨0x150, 0, 0, 0x0⟩
/-- PW_CFG, R91 (core). -/
def PW_CFG : RegDef := ⟨0x160, [
  ⟨63, 2, .rsv, .live, 0x0, false⟩,
  ⟨1, 0, .rw, .staged, 0x1, false⟩]⟩
def PW_CFG_PROMO_MAX : Fld := ⟨0x160, 1, 0, 0x1⟩
/-- PW_FIFO, R91 (core). -/
def PW_FIFO : RegDef := ⟨0x168, [
  ⟨63, 16, .rsv, .live, 0x0, false⟩,
  ⟨15, 8, .ro, .live, 0x0, false⟩,
  ⟨7, 5, .rsv, .live, 0x0, false⟩,
  ⟨4, 0, .ro, .live, 0x0, false⟩]⟩
def PW_FIFO_DROPPED : Fld := ⟨0x168, 15, 8, 0x0⟩
def PW_FIFO_COUNT : Fld := ⟨0x168, 4, 0, 0x0⟩
/-- PW_REC, R91 (core). -/
def PW_REC (i : Nat) : RegDef := ⟨0x170 + 8*i, [
  ⟨63, 0, .ro, .live, 0x0, false⟩]⟩
def PW_REC_W (i : Nat) : Fld := ⟨0x170 + 8*i, 63, 0, 0x0⟩
/-- PW_POP, R91 (core). -/
def PW_POP : RegDef := ⟨0x190, [
  ⟨0, 0, .wo, .live, 0x0, false⟩]⟩
def PW_POP_POP : Fld := ⟨0x190, 0, 0, 0x0⟩
/-- PW_TOTAL, R91 (core). -/
def PW_TOTAL (i : Nat) : RegDef := ⟨0x1A0 + 8*i, [
  ⟨63, 0, .ro, .live, 0x0, false⟩]⟩
def PW_TOTAL_W (i : Nat) : Fld := ⟨0x1A0 + 8*i, 63, 0, 0x0⟩
/-- PW_ACTIONS, R91 (core). -/
def PW_ACTIONS : RegDef := ⟨0x1D8, [
  ⟨63, 32, .ro, .live, 0x0, false⟩,
  ⟨31, 0, .ro, .live, 0x0, false⟩]⟩
def PW_ACTIONS_PROMOTED : Fld := ⟨0x1D8, 63, 32, 0x0⟩
def PW_ACTIONS_WARNED : Fld := ⟨0x1D8, 31, 0, 0x0⟩
/-- TSET_W0, R91 (core). -/
def TSET_W0 (i : Nat) : RegDef := ⟨0x200 + 0x40*i, [
  ⟨63, 32, .rw, .staged, 0xFFFFFFFF, false⟩,
  ⟨31, 0, .rw, .staged, 0xFFFFFFFF, false⟩]⟩
def TSET_W0_LIM_CLIP_IN (i : Nat) : Fld := ⟨0x200 + 0x40*i, 63, 32, 0xFFFFFFFFFFFFFFFF⟩
def TSET_W0_LIM_HALO_OVF (i : Nat) : Fld := ⟨0x200 + 0x40*i, 31, 0, 0xFFFFFFFFFFFFFFFF⟩
/-- TSET_W1, R91 (core). -/
def TSET_W1 (i : Nat) : RegDef := ⟨0x208 + 0x40*i, [
  ⟨63, 32, .rw, .staged, 0xFFFFFFFF, false⟩,
  ⟨31, 0, .rw, .staged, 0xFFFFFFFF, false⟩]⟩
def TSET_W1_LIM_CLIP_OUT (i : Nat) : Fld := ⟨0x208 + 0x40*i, 63, 32, 0xFFFFFFFFFFFFFFFF⟩
def TSET_W1_LIM_SCALE_UF (i : Nat) : Fld := ⟨0x208 + 0x40*i, 31, 0, 0xFFFFFFFFFFFFFFFF⟩
/-- TSET_W2, R91 (core). -/
def TSET_W2 (i : Nat) : RegDef := ⟨0x210 + 0x40*i, [
  ⟨63, 32, .rw, .staged, 0xFFFFFFFF, false⟩,
  ⟨31, 0, .rw, .staged, 0xFFFFFFFF, false⟩]⟩
def TSET_W2_LIM_SCALE_OF (i : Nat) : Fld := ⟨0x210 + 0x40*i, 63, 32, 0xFFFFFFFFFFFFFFFF⟩
def TSET_W2_LIM_SR_SAT (i : Nat) : Fld := ⟨0x210 + 0x40*i, 31, 0, 0xFFFFFFFFFFFFFFFF⟩
/-- TSET_W3, R91 (core). -/
def TSET_W3 (i : Nat) : RegDef := ⟨0x218 + 0x40*i, [
  ⟨63, 32, .rw, .staged, 0xFFFFFFFF, false⟩,
  ⟨31, 16, .rw, .staged, 0x2E66, false⟩,
  ⟨15, 0, .rw, .staged, 0x1400, false⟩]⟩
def TSET_W3_LIM_DRIFT (i : Nat) : Fld := ⟨0x218 + 0x40*i, 63, 32, 0xFFFFFFFF2E661400⟩
def TSET_W3_DRIFT_E (i : Nat) : Fld := ⟨0x218 + 0x40*i, 31, 16, 0xFFFFFFFF2E661400⟩
def TSET_W3_DRIFT_FLOOR (i : Nat) : Fld := ⟨0x218 + 0x40*i, 15, 0, 0xFFFFFFFF2E661400⟩
/-- TSET_W4, R91 (core). -/
def TSET_W4 (i : Nat) : RegDef := ⟨0x220 + 0x40*i, [
  ⟨63, 14, .rsv, .live, 0x0, false⟩,
  ⟨13, 0, .rw, .staged, 0x0, false⟩]⟩
def TSET_W4_ACTIONS (i : Nat) : Fld := ⟨0x220 + 0x40*i, 13, 0, 0x0⟩
/-- SEQ_STATUS, R130 (core). -/
def SEQ_STATUS : RegDef := ⟨0x400, [
  ⟨63, 44, .ro, .live, 0x0, false⟩,
  ⟨43, 40, .ro, .live, 0x0, false⟩,
  ⟨39, 36, .ro, .live, 0x0, false⟩,
  ⟨35, 32, .ro, .live, 0x0, false⟩,
  ⟨31, 24, .ro, .live, 0x0, false⟩,
  ⟨23, 3, .rsv, .live, 0x0, false⟩,
  ⟨2, 2, .ro, .live, 0x0, false⟩,
  ⟨1, 1, .w1c, .live, 0x0, false⟩,
  ⟨0, 0, .ro, .live, 0x0, false⟩]⟩
def SEQ_STATUS_PC : Fld := ⟨0x400, 63, 44, 0x0⟩
def SEQ_STATUS_STATE : Fld := ⟨0x400, 43, 40, 0x0⟩
def SEQ_STATUS_WAIT_REASON : Fld := ⟨0x400, 39, 36, 0x0⟩
def SEQ_STATUS_WAIT_K : Fld := ⟨0x400, 35, 32, 0x0⟩
def SEQ_STATUS_FAULTS_LOST : Fld := ⟨0x400, 31, 24, 0x0⟩
def SEQ_STATUS_FAULT : Fld := ⟨0x400, 2, 2, 0x0⟩
def SEQ_STATUS_CFG_LOCKED_WR : Fld := ⟨0x400, 1, 1, 0x0⟩
def SEQ_STATUS_BUSY : Fld := ⟨0x400, 0, 0, 0x0⟩
/-- SEQ_CTRL, R130 (core). -/
def SEQ_CTRL : RegDef := ⟨0x408, [
  ⟨63, 4, .rsv, .live, 0x0, true⟩,
  ⟨3, 3, .wo, .live, 0x0, true⟩,
  ⟨2, 2, .wo, .live, 0x0, true⟩,
  ⟨1, 1, .wo, .live, 0x0, true⟩,
  ⟨0, 0, .wo, .live, 0x0, true⟩]⟩
def SEQ_CTRL_RSTART : Fld := ⟨0x408, 3, 3, 0x0⟩
def SEQ_CTRL_STOP : Fld := ⟨0x408, 2, 2, 0x0⟩
def SEQ_CTRL_RESUME : Fld := ⟨0x408, 1, 1, 0x0⟩
def SEQ_CTRL_START : Fld := ⟨0x408, 0, 0, 0x0⟩
/-- SEQ_CFG, R130 (core). -/
def SEQ_CFG : RegDef := ⟨0x410, [
  ⟨63, 44, .rw, .locked, 0x0, false⟩,
  ⟨43, 36, .rsv, .live, 0x0, false⟩,
  ⟨35, 32, .rw, .locked, 0xF, false⟩,
  ⟨31, 0, .rsv, .live, 0x0, false⟩]⟩
def SEQ_CFG_ENTRY : Fld := ⟨0x410, 63, 44, 0xF00000000⟩
def SEQ_CFG_DMA_QDEPTH : Fld := ⟨0x410, 35, 32, 0xF00000000⟩
/-- CORE_ID, R130 (core). -/
def CORE_ID : RegDef := ⟨0x418, [
  ⟨63, 48, .ro, .live, 0x0, false⟩,
  ⟨47, 32, .ro, .live, 0x0, false⟩,
  ⟨31, 25, .ro, .live, 0x7F, false⟩,
  ⟨24, 13, .rsv, .live, 0x0, false⟩,
  ⟨12, 0, .ro, .live, 0x0, false⟩]⟩
def CORE_ID_LCORE : Fld := ⟨0x418, 63, 48, 0xFE000000⟩
def CORE_ID_NCORES : Fld := ⟨0x418, 47, 32, 0xFE000000⟩
def CORE_ID_PARTITION : Fld := ⟨0x418, 31, 25, 0xFE000000⟩
def CORE_ID_SITE : Fld := ⟨0x418, 12, 0, 0xFE000000⟩
/-- EPOCH_REG, R130 (core). -/
def EPOCH_REG : RegDef := ⟨0x420, [
  ⟨63, 0, .ro, .live, 0x0, false⟩]⟩
def EPOCH_REG_W : Fld := ⟨0x420, 63, 0, 0x0⟩
/-- CYCLES, R130 (core). -/
def CYCLES : RegDef := ⟨0x428, [
  ⟨63, 0, .ro, .live, 0x0, false⟩]⟩
def CYCLES_W : Fld := ⟨0x428, 63, 0, 0x0⟩
/-- RETIRED, R130 (core). -/
def RETIRED : RegDef := ⟨0x430, [
  ⟨63, 0, .ro, .live, 0x0, false⟩]⟩
def RETIRED_W : Fld := ⟨0x430, 63, 0, 0x0⟩
/-- QUEUE_STATUS, R130 (core). -/
def QUEUE_STATUS : RegDef := ⟨0x438, [
  ⟨63, 48, .ro, .live, 0x0, false⟩,
  ⟨47, 40, .ro, .live, 0x0, false⟩,
  ⟨39, 32, .ro, .live, 0x0, false⟩,
  ⟨31, 24, .ro, .live, 0x0, false⟩,
  ⟨23, 0, .rsv, .live, 0x0, false⟩]⟩
def QUEUE_STATUS_UNACKED : Fld := ⟨0x438, 63, 48, 0x0⟩
def QUEUE_STATUS_VEC_Q : Fld := ⟨0x438, 47, 40, 0x0⟩
def QUEUE_STATUS_EDGE_Q : Fld := ⟨0x438, 39, 32, 0x0⟩
def QUEUE_STATUS_DMA_Q : Fld := ⟨0x438, 31, 24, 0x0⟩
/-- SEQ_THROTTLE, R130 (core). -/
def SEQ_THROTTLE : RegDef := ⟨0x440, [
  ⟨63, 8, .rsv, .live, 0x0, true⟩,
  ⟨7, 0, .rw, .live, 0xFF, true⟩]⟩
def SEQ_THROTTLE_DUTY : Fld := ⟨0x440, 7, 0, 0xFF⟩
/-- KCNT, R130 (core). -/
def KCNT (i : Nat) : RegDef := ⟨0x448 + 8*i, [
  ⟨63, 48, .rw, .locked, 0x0, true⟩,
  ⟨47, 32, .rw, .locked, 0x0, true⟩,
  ⟨31, 16, .rw, .locked, 0x0, true⟩,
  ⟨15, 0, .rw, .locked, 0x0, true⟩]⟩
def KCNT_KHI (i : Nat) : Fld := ⟨0x448 + 8*i, 63, 48, 0x0⟩
def KCNT_KMID1 (i : Nat) : Fld := ⟨0x448 + 8*i, 47, 32, 0x0⟩
def KCNT_KMID0 (i : Nat) : Fld := ⟨0x448 + 8*i, 31, 16, 0x0⟩
def KCNT_KLO (i : Nat) : Fld := ⟨0x448 + 8*i, 15, 0, 0x0⟩
/-- FAULT_REC, R130 (core). -/
def FAULT_REC (i : Nat) : RegDef := ⟨0x468 + 8*i, [
  ⟨63, 0, .ro, .live, 0x0, false⟩]⟩
def FAULT_REC_W (i : Nat) : Fld := ⟨0x468 + 8*i, 63, 0, 0x0⟩
/-- LIVE, R130 (core). -/
def LIVE (i : Nat) : RegDef := ⟨0x488 + 8*i, [
  ⟨63, 46, .rw, .live, 0x0, false⟩,
  ⟨45, 28, .rw, .live, 0x0, false⟩,
  ⟨27, 0, .rsv, .live, 0x0, false⟩]⟩
def LIVE_START (i : Nat) : Fld := ⟨0x488 + 8*i, 63, 46, 0x0⟩
def LIVE_LEN (i : Nat) : Fld := ⟨0x488 + 8*i, 45, 28, 0x0⟩
/-- CREG_SEL, R131 (core). -/
def CREG_SEL : RegDef := ⟨0x4C8, [
  ⟨63, 5, .rsv, .live, 0x0, true⟩,
  ⟨4, 0, .rw, .live, 0x0, true⟩]⟩
def CREG_SEL_W : Fld := ⟨0x4C8, 4, 0, 0x0⟩
/-- CREG_DATA, R131 (core). -/
def CREG_DATA : RegDef := ⟨0x4D0, [
  ⟨63, 0, .rw, .locked, 0x0, true⟩]⟩
def CREG_DATA_W : Fld := ⟨0x4D0, 63, 0, 0x0⟩
/-- RESTORE_PC, R131 (core). -/
def RESTORE_PC : RegDef := ⟨0x4D8, [
  ⟨63, 44, .rw, .locked, 0x0, true⟩,
  ⟨43, 0, .rsv, .live, 0x0, true⟩]⟩
def RESTORE_PC_W : Fld := ⟨0x4D8, 63, 44, 0x0⟩
/-- RESTORE_EPOCH, R131 (core). -/
def RESTORE_EPOCH : RegDef := ⟨0x4E0, [
  ⟨63, 0, .rw, .locked, 0x0, true⟩]⟩
def RESTORE_EPOCH_W : Fld := ⟨0x4E0, 63, 0, 0x0⟩
/-- VEC_STATUS, R160 (core). -/
def VEC_STATUS : RegDef := ⟨0x500, [
  ⟨63, 16, .rsv, .live, 0x0, false⟩,
  ⟨15, 8, .ro, .live, 0x0, false⟩,
  ⟨7, 4, .rsv, .live, 0x0, false⟩,
  ⟨3, 3, .w1c, .live, 0x0, false⟩,
  ⟨2, 2, .ro, .live, 0x0, false⟩,
  ⟨1, 1, .ro, .live, 0x0, false⟩,
  ⟨0, 0, .ro, .live, 0x0, false⟩]⟩
def VEC_STATUS_CHAIN_VALID : Fld := ⟨0x500, 15, 8, 0x0⟩
def VEC_STATUS_CFG_LOCKED_WR : Fld := ⟨0x500, 3, 3, 0x0⟩
def VEC_STATUS_CMP_BUSY : Fld := ⟨0x500, 2, 2, 0x0⟩
def VEC_STATUS_MEM_BUSY : Fld := ⟨0x500, 1, 1, 0x0⟩
def VEC_STATUS_BUSY : Fld := ⟨0x500, 0, 0, 0x0⟩
/-- VEC_CFG, R160 (core). -/
def VEC_CFG : RegDef := ⟨0x508, [
  ⟨63, 16, .rsv, .live, 0x0, false⟩,
  ⟨15, 8, .rw, .live, 0xFF, true⟩,
  ⟨7, 5, .rsv, .live, 0x0, false⟩,
  ⟨4, 0, .rw, .locked, 0x1F, false⟩]⟩
def VEC_CFG_DUTY : Fld := ⟨0x508, 15, 8, 0xFF1F⟩
def VEC_CFG_QDEPTH : Fld := ⟨0x508, 4, 0, 0xFF1F⟩
/-- VEC_SEED, R160 (core). -/
def VEC_SEED : RegDef := ⟨0x510, [
  ⟨63, 0, .rw, .staged, 0x1, false⟩]⟩
def VEC_SEED_W : Fld := ⟨0x510, 63, 0, 0x1⟩
/-- VADDR, R160 (core). -/
def VADDR (i : Nat) : RegDef := ⟨0x518 + 8*i, [
  ⟨63, 40, .rw, .live, 0x0, false⟩,
  ⟨39, 23, .rsv, .live, 0x0, false⟩,
  ⟨22, 0, .rw, .live, 0x0, false⟩]⟩
def VADDR_PITCH (i : Nat) : Fld := ⟨0x518 + 8*i, 63, 40, 0x0⟩
def VADDR_ADDR (i : Nat) : Fld := ⟨0x518 + 8*i, 22, 0, 0x0⟩
/-- VEC_BUSY_CYCLES, R160 (core). -/
def VEC_BUSY_CYCLES : RegDef := ⟨0x558, [
  ⟨63, 0, .ro, .live, 0x0, false⟩]⟩
def VEC_BUSY_CYCLES_W : Fld := ⟨0x558, 63, 0, 0x0⟩
/-- EDGE_STATUS, R188 (core). -/
def EDGE_STATUS : RegDef := ⟨0x600, [
  ⟨63, 48, .rsv, .live, 0x0, false⟩,
  ⟨47, 37, .ro, .live, 0x0, false⟩,
  ⟨36, 34, .ro, .live, 0x0, false⟩,
  ⟨33, 29, .ro, .live, 0x0, false⟩,
  ⟨28, 3, .rsv, .live, 0x0, false⟩,
  ⟨2, 2, .ro, .live, 0x0, false⟩,
  ⟨1, 1, .w1c, .live, 0x0, false⟩,
  ⟨0, 0, .ro, .live, 0x0, false⟩]⟩
def EDGE_STATUS_OUTSTANDING : Fld := ⟨0x600, 47, 37, 0x0⟩
def EDGE_STATUS_INFLIGHT : Fld := ⟨0x600, 36, 34, 0x0⟩
def EDGE_STATUS_QUEUED : Fld := ⟨0x600, 33, 29, 0x0⟩
def EDGE_STATUS_KEYSET : Fld := ⟨0x600, 2, 2, 0x0⟩
def EDGE_STATUS_CFG_LOCKED_WR : Fld := ⟨0x600, 1, 1, 0x0⟩
def EDGE_STATUS_BUSY : Fld := ⟨0x600, 0, 0, 0x0⟩
/-- EDGE_CFG, R188 (core). -/
def EDGE_CFG : RegDef := ⟨0x608, [
  ⟨63, 24, .rsv, .live, 0x0, false⟩,
  ⟨23, 16, .rw, .live, 0xFF, true⟩,
  ⟨15, 6, .rw, .locked, 0x3FF, false⟩,
  ⟨5, 4, .rsv, .live, 0x0, false⟩,
  ⟨3, 0, .rw, .locked, 0xF, false⟩]⟩
def EDGE_CFG_DUTY : Fld := ⟨0x608, 23, 16, 0xFFFFCF⟩
def EDGE_CFG_MAXOUT : Fld := ⟨0x608, 15, 6, 0xFFFFCF⟩
def EDGE_CFG_QDEPTH : Fld := ⟨0x608, 3, 0, 0xFFFFCF⟩
/-- EDGE_SEED, R188 (core). -/
def EDGE_SEED : RegDef := ⟨0x610, [
  ⟨63, 0, .rw, .staged, 0x1, false⟩]⟩
def EDGE_SEED_W : Fld := ⟨0x610, 63, 0, 0x1⟩
/-- EDGE_SMAP, R188 (core). -/
def EDGE_SMAP : RegDef := ⟨0x618, [
  ⟨63, 46, .rw, .live, 0x0, false⟩,
  ⟨45, 32, .rsv, .live, 0x0, false⟩,
  ⟨31, 16, .rw, .live, 0x0, false⟩,
  ⟨15, 0, .rw, .live, 0x0, false⟩]⟩
def EDGE_SMAP_BASE : Fld := ⟨0x618, 63, 46, 0x0⟩
def EDGE_SMAP_FIRST : Fld := ⟨0x618, 31, 16, 0x0⟩
def EDGE_SMAP_NSHARD : Fld := ⟨0x618, 15, 0, 0x0⟩
/-- EDGE_EVENTS, R188 (core). -/
def EDGE_EVENTS : RegDef := ⟨0x620, [
  ⟨63, 32, .ro, .live, 0x0, false⟩,
  ⟨31, 0, .ro, .live, 0x0, false⟩]⟩
def EDGE_EVENTS_BADID : Fld := ⟨0x620, 63, 32, 0x0⟩
def EDGE_EVENTS_UNSORTED : Fld := ⟨0x620, 31, 0, 0x0⟩
/-- EDGE_ROWS, R188 (core). -/
def EDGE_ROWS : RegDef := ⟨0x628, [
  ⟨63, 0, .ro, .live, 0x0, false⟩]⟩
def EDGE_ROWS_ROWS : Fld := ⟨0x628, 63, 0, 0x0⟩
/-- EDGE_BUSY_CYCLES, R188 (core). -/
def EDGE_BUSY_CYCLES : RegDef := ⟨0x630, [
  ⟨63, 0, .ro, .live, 0x0, false⟩]⟩
def EDGE_BUSY_CYCLES_W : Fld := ⟨0x630, 63, 0, 0x0⟩
/-- SP_BANK, R211 (core). -/
def SP_BANK (i : Nat) : RegDef := ⟨0x700 + 8*i, [
  ⟨63, 24, .rsv, .live, 0x0, false⟩,
  ⟨23, 23, .ro, .live, 0x0, false⟩,
  ⟨22, 16, .ro, .live, 0x0, false⟩,
  ⟨15, 15, .ro, .live, 0x0, false⟩,
  ⟨14, 4, .rsv, .live, 0x0, false⟩,
  ⟨3, 0, .rw, .live, 0x0, false⟩]⟩
def SP_BANK_MIGRATING (i : Nat) : Fld := ⟨0x700 + 8*i, 23, 23, 0x0⟩
def SP_BANK_SPARES_USED (i : Nat) : Fld := ⟨0x700 + 8*i, 22, 16, 0x0⟩
def SP_BANK_SURVEY_HELD (i : Nat) : Fld := ⟨0x700 + 8*i, 15, 15, 0x0⟩
def SP_BANK_OWNER (i : Nat) : Fld := ⟨0x700 + 8*i, 3, 0, 0x0⟩
/-- SP_STATUS, R211 (core). -/
def SP_STATUS : RegDef := ⟨0x7C0, [
  ⟨63, 32, .ro, .live, 0x0, false⟩,
  ⟨31, 16, .ro, .live, 0x0, false⟩,
  ⟨15, 3, .rsv, .live, 0x0, false⟩,
  ⟨2, 2, .ro, .live, 0x0, false⟩,
  ⟨1, 1, .w1c, .live, 0x0, false⟩,
  ⟨0, 0, .rsv, .live, 0x0, false⟩]⟩
def SP_STATUS_CE_TOTAL : Fld := ⟨0x7C0, 63, 32, 0x0⟩
def SP_STATUS_UE_TOTAL : Fld := ⟨0x7C0, 31, 16, 0x0⟩
def SP_STATUS_ZERO_BUSY : Fld := ⟨0x7C0, 2, 2, 0x0⟩
def SP_STATUS_CFG_LOCKED_WR : Fld := ⟨0x7C0, 1, 1, 0x0⟩
/-- SP_CFG, R211 (core). -/
def SP_CFG : RegDef := ⟨0x7C8, [
  ⟨63, 20, .rsv, .live, 0x0, true⟩,
  ⟨19, 16, .rw, .live, 0x4, true⟩,
  ⟨15, 1, .rsv, .live, 0x0, true⟩,
  ⟨0, 0, .rw, .live, 0x1, true⟩]⟩
def SP_CFG_CE_THRESH : Fld := ⟨0x7C8, 19, 16, 0x40001⟩
def SP_CFG_SCRUB_EN : Fld := ⟨0x7C8, 0, 0, 0x40001⟩
/-- SURVEY_CFG, R211 (core). -/
def SURVEY_CFG : RegDef := ⟨0x7D0, [
  ⟨63, 32, .rsv, .live, 0x0, true⟩,
  ⟨31, 8, .rw, .live, 0x9598, true⟩,
  ⟨7, 3, .rsv, .live, 0x0, true⟩,
  ⟨2, 2, .wo, .live, 0x0, true⟩,
  ⟨1, 1, .rw, .live, 0x0, true⟩,
  ⟨0, 0, .rw, .live, 0x1, true⟩]⟩
def SURVEY_CFG_INTERVAL : Fld := ⟨0x7D0, 31, 8, 0x959801⟩
def SURVEY_CFG_RELEASE : Fld := ⟨0x7D0, 2, 2, 0x959801⟩
def SURVEY_CFG_PAUSE : Fld := ⟨0x7D0, 1, 1, 0x959801⟩
def SURVEY_CFG_ENABLE : Fld := ⟨0x7D0, 0, 0, 0x959801⟩
/-- SURVEY_STATUS, R211 (core). -/
def SURVEY_STATUS : RegDef := ⟨0x7D8, [
  ⟨63, 48, .ro, .live, 0x0, false⟩,
  ⟨47, 43, .ro, .live, 0x0, false⟩,
  ⟨42, 32, .ro, .live, 0x0, false⟩,
  ⟨31, 16, .ro, .live, 0x0, false⟩,
  ⟨15, 0, .ro, .live, 0x0, false⟩]⟩
def SURVEY_STATUS_PASSES : Fld := ⟨0x7D8, 63, 48, 0x0⟩
def SURVEY_STATUS_BANK : Fld := ⟨0x7D8, 47, 43, 0x0⟩
def SURVEY_STATUS_ROW : Fld := ⟨0x7D8, 42, 32, 0x0⟩
def SURVEY_STATUS_FAILS : Fld := ⟨0x7D8, 31, 16, 0x0⟩
def SURVEY_STATUS_SKIPPED : Fld := ⟨0x7D8, 15, 0, 0x0⟩
/-- SP_LASTERR, R211 (core). -/
def SP_LASTERR : RegDef := ⟨0x7E0, [
  ⟨63, 62, .ro, .live, 0x0, false⟩,
  ⟨61, 57, .ro, .live, 0x0, false⟩,
  ⟨56, 46, .ro, .live, 0x0, false⟩,
  ⟨45, 43, .ro, .live, 0x0, false⟩,
  ⟨42, 41, .ro, .live, 0x0, false⟩,
  ⟨40, 40, .ro, .live, 0x0, false⟩,
  ⟨39, 32, .ro, .live, 0x0, false⟩,
  ⟨31, 0, .rsv, .live, 0x0, false⟩]⟩
def SP_LASTERR_KIND : Fld := ⟨0x7E0, 63, 62, 0x0⟩
def SP_LASTERR_BANK : Fld := ⟨0x7E0, 61, 57, 0x0⟩
def SP_LASTERR_ROW : Fld := ⟨0x7E0, 56, 46, 0x0⟩
def SP_LASTERR_WORD : Fld := ⟨0x7E0, 45, 43, 0x0⟩
def SP_LASTERR_GRANULE : Fld := ⟨0x7E0, 42, 41, 0x0⟩
def SP_LASTERR_PORT : Fld := ⟨0x7E0, 40, 40, 0x0⟩
def SP_LASTERR_SYNDROME : Fld := ⟨0x7E0, 39, 32, 0x0⟩
/-- SP_MAP, R211 (core). -/
def SP_MAP : RegDef := ⟨0x7E8, [
  ⟨63, 62, .wo, .live, 0x0, true⟩,
  ⟨61, 57, .rw, .live, 0x0, true⟩,
  ⟨56, 51, .rw, .live, 0x0, true⟩,
  ⟨50, 49, .rw, .locked, 0x0, true⟩,
  ⟨48, 39, .rw, .locked, 0x0, true⟩,
  ⟨38, 0, .rsv, .live, 0x0, true⟩]⟩
def SP_MAP_CMD : Fld := ⟨0x7E8, 63, 62, 0x0⟩
def SP_MAP_BANK : Fld := ⟨0x7E8, 61, 57, 0x0⟩
def SP_MAP_ENTRY : Fld := ⟨0x7E8, 56, 51, 0x0⟩
def SP_MAP_STATE : Fld := ⟨0x7E8, 50, 49, 0x0⟩
def SP_MAP_LROW : Fld := ⟨0x7E8, 48, 39, 0x0⟩
/-- SP_MIGRATE, R211 (core). -/
def SP_MIGRATE : RegDef := ⟨0x7F0, [
  ⟨63, 59, .rw, .live, 0x0, true⟩,
  ⟨58, 53, .rw, .live, 0x0, true⟩,
  ⟨52, 43, .rw, .live, 0x0, true⟩,
  ⟨42, 5, .rsv, .live, 0x0, true⟩,
  ⟨4, 4, .rw, .live, 0x0, true⟩,
  ⟨3, 2, .ro, .live, 0x0, true⟩,
  ⟨1, 1, .ro, .live, 0x0, true⟩,
  ⟨0, 0, .wo, .live, 0x0, true⟩]⟩
def SP_MIGRATE_BANK : Fld := ⟨0x7F0, 63, 59, 0x0⟩
def SP_MIGRATE_ENTRY : Fld := ⟨0x7F0, 58, 53, 0x0⟩
def SP_MIGRATE_LROW : Fld := ⟨0x7F0, 52, 43, 0x0⟩
def SP_MIGRATE_SOURCE : Fld := ⟨0x7F0, 4, 4, 0x0⟩
def SP_MIGRATE_RESULT : Fld := ⟨0x7F0, 3, 2, 0x0⟩
def SP_MIGRATE_BUSY : Fld := ⟨0x7F0, 1, 1, 0x0⟩
def SP_MIGRATE_GO : Fld := ⟨0x7F0, 0, 0, 0x0⟩
/-- SP_CTRL, R211 (core). -/
def SP_CTRL : RegDef := ⟨0x7F8, [
  ⟨63, 2, .rsv, .live, 0x0, true⟩,
  ⟨1, 1, .wo, .live, 0x0, true⟩,
  ⟨0, 0, .wo, .live, 0x0, true⟩]⟩
def SP_CTRL_CE_CLEAR : Fld := ⟨0x7F8, 1, 1, 0x0⟩
def SP_CTRL_ZEROISE : Fld := ⟨0x7F8, 0, 0, 0x0⟩
/-- WIN_HDR, R216 (spine). -/
def WIN_HDR (i : Nat) : RegDef := ⟨0x10000 + 0x8000*i, [
  ⟨63, 52, .rw, .staged, 0x0, true⟩,
  ⟨51, 39, .rw, .staged, 0x0, true⟩,
  ⟨38, 23, .rw, .staged, 0xFFFF, true⟩,
  ⟨22, 22, .rw, .staged, 0x0, true⟩,
  ⟨21, 20, .rw, .staged, 0x0, true⟩,
  ⟨19, 14, .rw, .staged, 0x0, true⟩,
  ⟨13, 8, .rsv, .live, 0x0, true⟩,
  ⟨7, 7, .rw, .staged, 0x0, true⟩,
  ⟨6, 0, .rw, .staged, 0x7F, true⟩]⟩
def WIN_HDR_UNITS (i : Nat) : Fld := ⟨0x10000 + 0x8000*i, 63, 52, 0x7FFF80007F⟩
def WIN_HDR_NCORES (i : Nat) : Fld := ⟨0x10000 + 0x8000*i, 51, 39, 0x7FFF80007F⟩
def WIN_HDR_CACHE_WAYS (i : Nat) : Fld := ⟨0x10000 + 0x8000*i, 38, 23, 0x7FFF80007F⟩
def WIN_HDR_EPOCH_TAG (i : Nat) : Fld := ⟨0x10000 + 0x8000*i, 22, 22, 0x7FFF80007F⟩
def WIN_HDR_HPORT (i : Nat) : Fld := ⟨0x10000 + 0x8000*i, 21, 20, 0x7FFF80007F⟩
def WIN_HDR_HFUNC (i : Nat) : Fld := ⟨0x10000 + 0x8000*i, 19, 14, 0x7FFF80007F⟩
def WIN_HDR_VALID (i : Nat) : Fld := ⟨0x10000 + 0x8000*i, 7, 7, 0x7FFF80007F⟩
def WIN_HDR_PART (i : Nat) : Fld := ⟨0x10000 + 0x8000*i, 6, 0, 0x7FFF80007F⟩
/-- WIN_SEL, R216 (spine). -/
def WIN_SEL : RegDef := ⟨0xF000, [
  ⟨63, 32, .rsv, .live, 0x0, true⟩,
  ⟨31, 0, .rw, .locked, 0x0, true⟩]⟩
def WIN_SEL_SEL : Fld := ⟨0xF000, 31, 0, 0x0⟩
/-- NET_CFG, R277 (spine). -/
def NET_CFG : RegDef := ⟨0xF100, [
  ⟨63, 8, .rsv, .live, 0x0, true⟩,
  ⟨7, 0, .rw, .live, 0xA, true⟩]⟩
def NET_CFG_TX_TIMEOUT : Fld := ⟨0xF100, 7, 0, 0xA⟩
/-- NET_STATUS, R277 (spine). -/
def NET_STATUS : RegDef := ⟨0xF108, [
  ⟨63, 32, .ro, .live, 0x0, true⟩,
  ⟨31, 16, .ro, .live, 0x0, true⟩,
  ⟨15, 0, .ro, .live, 0x0, true⟩]⟩
def NET_STATUS_TIMEOUTS : Fld := ⟨0xF108, 63, 32, 0x0⟩
def NET_STATUS_LATE : Fld := ⟨0xF108, 31, 16, 0x0⟩
def NET_STATUS_CORRUPT : Fld := ⟨0xF108, 15, 0, 0x0⟩
/-- MC_HOLES, R277 (spine). -/
def MC_HOLES : RegDef := ⟨0xF110, [
  ⟨63, 40, .rsv, .live, 0x0, true⟩,
  ⟨39, 24, .rw, .live, 0x0, true⟩,
  ⟨23, 0, .rw, .live, 0x0, true⟩]⟩
def MC_HOLES_COL_HOLES : Fld := ⟨0xF110, 39, 24, 0x0⟩
def MC_HOLES_ROW_HOLES : Fld := ⟨0xF110, 23, 0, 0x0⟩
/-- PM_ENERGY, R327 (spine). -/
def PM_ENERGY (i : Nat) : RegDef := ⟨0xF200 + 8*i, [
  ⟨63, 0, .ro, .live, 0x0, true⟩]⟩
def PM_ENERGY_W (i : Nat) : Fld := ⟨0xF200 + 8*i, 63, 0, 0x0⟩
/-- PM_ACTIVE, R327 (spine). -/
def PM_ACTIVE (i : Nat) : RegDef := ⟨0xF220 + 8*i, [
  ⟨63, 0, .ro, .live, 0x0, true⟩]⟩
def PM_ACTIVE_W (i : Nat) : Fld := ⟨0xF220 + 8*i, 63, 0, 0x0⟩
/-- CLK_STATUS, R358 (spine). -/
def CLK_STATUS : RegDef := ⟨0xF300, [
  ⟨63, 56, .ro, .live, 0x20, true⟩,
  ⟨55, 48, .ro, .live, 0x0, true⟩,
  ⟨47, 32, .ro, .live, 0x0, true⟩,
  ⟨31, 7, .rsv, .live, 0x0, true⟩,
  ⟨6, 6, .ro, .live, 0x0, true⟩,
  ⟨5, 5, .ro, .live, 0x0, true⟩,
  ⟨4, 4, .ro, .live, 0x0, true⟩,
  ⟨3, 3, .ro, .live, 0x0, true⟩,
  ⟨2, 2, .ro, .live, 0x0, true⟩,
  ⟨1, 1, .ro, .live, 0x0, true⟩,
  ⟨0, 0, .ro, .live, 0x0, true⟩]⟩
def CLK_STATUS_F_CODE : Fld := ⟨0xF300, 63, 56, 0x2000000000000000⟩
def CLK_STATUS_F_ARMED : Fld := ⟨0xF300, 55, 48, 0x2000000000000000⟩
def CLK_STATUS_CHANGE_ID : Fld := ⟨0xF300, 47, 32, 0x2000000000000000⟩
def CLK_STATUS_HOLDOVER : Fld := ⟨0xF300, 6, 6, 0x2000000000000000⟩
def CLK_STATUS_REFB_OK : Fld := ⟨0xF300, 5, 5, 0x2000000000000000⟩
def CLK_STATUS_REFA_OK : Fld := ⟨0xF300, 4, 4, 0x2000000000000000⟩
def CLK_STATUS_REF_SEL : Fld := ⟨0xF300, 3, 3, 0x2000000000000000⟩
def CLK_STATUS_SOUTH_RUN : Fld := ⟨0xF300, 2, 2, 0x2000000000000000⟩
def CLK_STATUS_NORTH_RUN : Fld := ⟨0xF300, 1, 1, 0x2000000000000000⟩
def CLK_STATUS_ARMED : Fld := ⟨0xF300, 0, 0, 0x2000000000000000⟩
/-- CLK_CFG, R358 (spine). -/
def CLK_CFG : RegDef := ⟨0xF308, [
  ⟨63, 48, .rw, .live, 0x64, true⟩,
  ⟨47, 2, .rsv, .live, 0x0, true⟩,
  ⟨1, 1, .rw, .live, 0x0, true⟩,
  ⟨0, 0, .rw, .live, 0x0, true⟩]⟩
def CLK_CFG_IDLE_US : Fld := ⟨0xF308, 63, 48, 0x64000000000000⟩
def CLK_CFG_FORCE_RUN : Fld := ⟨0xF308, 1, 1, 0x64000000000000⟩
def CLK_CFG_REF_PREF : Fld := ⟨0xF308, 0, 0, 0x64000000000000⟩
/-- AON_COUNT, R358 (spine). -/
def AON_COUNT : RegDef := ⟨0xF310, [
  ⟨63, 0, .ro, .live, 0x0, true⟩]⟩
def AON_COUNT_W : Fld := ⟨0xF310, 63, 0, 0x0⟩
/-- CLK_DROOP, R358 (spine). -/
def CLK_DROOP : RegDef := ⟨0xF318, [
  ⟨63, 32, .ro, .live, 0x0, true⟩,
  ⟨31, 0, .ro, .live, 0x0, true⟩]⟩
def CLK_DROOP_NORTH : Fld := ⟨0xF318, 63, 32, 0x0⟩
def CLK_DROOP_SOUTH : Fld := ⟨0xF318, 31, 0, 0x0⟩
/-- ROW_V, R358 (spine). -/
def ROW_V : RegDef := ⟨0xF320, [
  ⟨63, 48, .ro, .live, 0x0, true⟩,
  ⟨47, 32, .ro, .live, 0x0, true⟩,
  ⟨31, 0, .rsv, .live, 0x0, true⟩]⟩
def ROW_V_NORTH_MV : Fld := ⟨0xF320, 63, 48, 0x0⟩
def ROW_V_SOUTH_MV : Fld := ⟨0xF320, 47, 32, 0x0⟩
/-- TH_READ, R378 (spine). -/
def TH_READ : RegDef := ⟨0xF400, [
  ⟨63, 48, .ro, .live, 0x0, true⟩,
  ⟨47, 32, .ro, .live, 0x0, true⟩,
  ⟨31, 16, .ro, .live, 0x0, true⟩,
  ⟨15, 0, .ro, .live, 0x0, true⟩]⟩
def TH_READ_S3 : Fld := ⟨0xF400, 63, 48, 0x0⟩
def TH_READ_S2 : Fld := ⟨0xF400, 47, 32, 0x0⟩
def TH_READ_S1 : Fld := ⟨0xF400, 31, 16, 0x0⟩
def TH_READ_S0 : Fld := ⟨0xF400, 15, 0, 0x0⟩
/-- TH_STATUS, R378 (spine). -/
def TH_STATUS : RegDef := ⟨0xF408, [
  ⟨63, 48, .ro, .live, 0x0, true⟩,
  ⟨47, 16, .ro, .live, 0x0, true⟩,
  ⟨15, 6, .rsv, .live, 0x0, true⟩,
  ⟨5, 5, .ro, .live, 0x0, true⟩,
  ⟨4, 4, .ro, .live, 0x0, true⟩,
  ⟨3, 3, .ro, .live, 0x0, true⟩,
  ⟨2, 2, .ro, .live, 0x0, true⟩,
  ⟨1, 1, .ro, .live, 0x0, true⟩,
  ⟨0, 0, .ro, .live, 0x0, true⟩]⟩
def TH_STATUS_DIE_T : Fld := ⟨0xF408, 63, 48, 0x0⟩
def TH_STATUS_CYCLES : Fld := ⟨0xF408, 47, 16, 0x0⟩
def TH_STATUS_HEATER : Fld := ⟨0xF408, 5, 5, 0x0⟩
def TH_STATUS_DEW : Fld := ⟨0xF408, 4, 4, 0x0⟩
def TH_STATUS_DIE_HOLD : Fld := ⟨0xF408, 3, 3, 0x0⟩
def TH_STATUS_MODEL : Fld := ⟨0xF408, 2, 2, 0x0⟩
def TH_STATUS_PAIR1_FLAG : Fld := ⟨0xF408, 1, 1, 0x0⟩
def TH_STATUS_PAIR0_FLAG : Fld := ⟨0xF408, 0, 0, 0x0⟩
/-- TH_CFG, R378 (spine). -/
def TH_CFG : RegDef := ⟨0xF410, [
  ⟨63, 16, .rsv, .live, 0x0, true⟩,
  ⟨15, 8, .rw, .live, 0x5, true⟩,
  ⟨7, 0, .rw, .live, 0x0, true⟩]⟩
def TH_CFG_DEW_S : Fld := ⟨0xF410, 15, 8, 0x500⟩
def TH_CFG_HEATER_DUTY : Fld := ⟨0xF410, 7, 0, 0x500⟩
/-- CHK_CFG, R471 (chk). -/
def CHK_CFG : RegDef := ⟨0x000, [
  ⟨63, 40, .rw, .locked, 0x0, true⟩,
  ⟨39, 36, .rw, .locked, 0x0, true⟩,
  ⟨35, 15, .rsv, .live, 0x0, true⟩,
  ⟨14, 8, .rw, .locked, 0x7F, true⟩,
  ⟨7, 5, .rsv, .live, 0x0, true⟩,
  ⟨4, 3, .rw, .locked, 0x0, true⟩,
  ⟨2, 2, .rsv, .live, 0x0, true⟩,
  ⟨1, 0, .rw, .locked, 0x2, true⟩]⟩
def CHK_CFG_BLKLEN : Fld := ⟨0x000, 63, 40, 0x7F02⟩
def CHK_CFG_CTX : Fld := ⟨0x000, 39, 36, 0x7F02⟩
def CHK_CFG_PART : Fld := ⟨0x000, 14, 8, 0x7F02⟩
def CHK_CFG_MODE : Fld := ⟨0x000, 4, 3, 0x7F02⟩
def CHK_CFG_POLY : Fld := ⟨0x000, 1, 0, 0x7F02⟩
/-- CHK_ADDR, R471 (chk). -/
def CHK_ADDR : RegDef := ⟨0x008, [
  ⟨63, 0, .rw, .locked, 0x0, true⟩]⟩
def CHK_ADDR_W : Fld := ⟨0x008, 63, 0, 0x0⟩
/-- CHK_LEN, R471 (chk). -/
def CHK_LEN : RegDef := ⟨0x010, [
  ⟨63, 41, .rsv, .live, 0x0, true⟩,
  ⟨40, 0, .rw, .locked, 0x0, true⟩]⟩
def CHK_LEN_LEN : Fld := ⟨0x010, 40, 0, 0x0⟩
/-- CHK_STATUS, R471 (chk). -/
def CHK_STATUS : RegDef := ⟨0x018, [
  ⟨63, 48, .ro, .live, 0x0, true⟩,
  ⟨47, 32, .ro, .live, 0x0, true⟩,
  ⟨31, 8, .rsv, .live, 0x0, true⟩,
  ⟨7, 4, .ro, .live, 0x0, true⟩,
  ⟨3, 3, .w1c, .live, 0x0, true⟩,
  ⟨2, 2, .ro, .live, 0x0, true⟩,
  ⟨1, 1, .ro, .live, 0x0, true⟩,
  ⟨0, 0, .ro, .live, 0x0, true⟩]⟩
def CHK_STATUS_POISONED : Fld := ⟨0x018, 63, 48, 0x0⟩
def CHK_STATUS_BLOCKS_BAD : Fld := ⟨0x018, 47, 32, 0x0⟩
def CHK_STATUS_ERROR : Fld := ⟨0x018, 7, 4, 0x0⟩
def CHK_STATUS_CFG_LOCKED_WR : Fld := ⟨0x018, 3, 3, 0x0⟩
def CHK_STATUS_MISMATCH : Fld := ⟨0x018, 2, 2, 0x0⟩
def CHK_STATUS_DONE : Fld := ⟨0x018, 1, 1, 0x0⟩
def CHK_STATUS_BUSY : Fld := ⟨0x018, 0, 0, 0x0⟩
/-- CHK_RESULT, R471 (chk). -/
def CHK_RESULT : RegDef := ⟨0x020, [
  ⟨63, 0, .ro, .live, 0x0, true⟩]⟩
def CHK_RESULT_W : Fld := ⟨0x020, 63, 0, 0x0⟩
/-- CHK_CTRL, R471 (chk). -/
def CHK_CTRL : RegDef := ⟨0x028, [
  ⟨63, 2, .rsv, .live, 0x0, true⟩,
  ⟨1, 1, .wo, .live, 0x0, true⟩,
  ⟨0, 0, .wo, .live, 0x0, true⟩]⟩
def CHK_CTRL_ABORT : Fld := ⟨0x028, 1, 1, 0x0⟩
def CHK_CTRL_GO : Fld := ⟨0x028, 0, 0, 0x0⟩
/-- CHK_CTX, R471 (chk). -/
def CHK_CTX (i : Nat) : RegDef := ⟨0x100 + 8*i, [
  ⟨63, 48, .rw, .live, 0x0, true⟩,
  ⟨47, 32, .ro, .live, 0x0, true⟩,
  ⟨31, 24, .ro, .live, 0x0, true⟩,
  ⟨23, 16, .ro, .live, 0x0, true⟩,
  ⟨15, 8, .ro, .live, 0x0, true⟩,
  ⟨7, 6, .rsv, .live, 0x0, true⟩,
  ⟨5, 4, .ro, .live, 0x0, true⟩,
  ⟨3, 2, .rsv, .live, 0x0, true⟩,
  ⟨1, 0, .rw, .locked, 0x0, true⟩]⟩
def CHK_CTX_COUNT (i : Nat) : Fld := ⟨0x100 + 8*i, 63, 48, 0x0⟩
def CHK_CTX_LAST (i : Nat) : Fld := ⟨0x100 + 8*i, 47, 32, 0x0⟩
def CHK_CTX_GAPS (i : Nat) : Fld := ⟨0x100 + 8*i, 31, 24, 0x0⟩
def CHK_CTX_REPEATS (i : Nat) : Fld := ⟨0x100 + 8*i, 23, 16, 0x0⟩
def CHK_CTX_REJECTS (i : Nat) : Fld := ⟨0x100 + 8*i, 15, 8, 0x0⟩
def CHK_CTX_RUN (i : Nat) : Fld := ⟨0x100 + 8*i, 5, 4, 0x0⟩
def CHK_CTX_CMODE (i : Nat) : Fld := ⟨0x100 + 8*i, 1, 0, 0x0⟩
/-- CACHE_CMD, R229 (cache). -/
def CACHE_CMD : RegDef := ⟨0x000, [
  ⟨63, 2, .rsv, .live, 0x0, false⟩,
  ⟨1, 1, .wo, .live, 0x0, true⟩,
  ⟨0, 0, .wo, .live, 0x0, false⟩]⟩
def CACHE_CMD_INV_ALL : Fld := ⟨0x000, 1, 1, 0x0⟩
def CACHE_CMD_INV_PART : Fld := ⟨0x000, 0, 0, 0x0⟩
/-- CACHE_STATUS, R229 (cache). -/
def CACHE_STATUS : RegDef := ⟨0x008, [
  ⟨63, 18, .rsv, .live, 0x0, false⟩,
  ⟨17, 1, .ro, .live, 0x0, false⟩,
  ⟨0, 0, .ro, .live, 0x0, false⟩]⟩
def CACHE_STATUS_LINES : Fld := ⟨0x008, 17, 1, 0x0⟩
def CACHE_STATUS_BUSY : Fld := ⟨0x008, 0, 0, 0x0⟩
/-- CACHE_COUNTS, R229 (cache). -/
def CACHE_COUNTS : RegDef := ⟨0x010, [
  ⟨63, 32, .ro, .live, 0x0, false⟩,
  ⟨31, 0, .ro, .live, 0x0, false⟩]⟩
def CACHE_COUNTS_HITS : Fld := ⟨0x010, 63, 32, 0x0⟩
def CACHE_COUNTS_MISSES : Fld := ⟨0x010, 31, 0, 0x0⟩
/-- RT_STATUS, R275 (router). -/
def RT_STATUS : RegDef := ⟨0x0000, [
  ⟨63, 48, .rsv, .live, 0x0, true⟩,
  ⟨47, 40, .ro, .live, 0x0, true⟩,
  ⟨39, 32, .ro, .live, 0x0, true⟩,
  ⟨31, 8, .rsv, .live, 0x0, true⟩,
  ⟨7, 4, .ro, .live, 0x0, true⟩,
  ⟨3, 3, .ro, .live, 0x0, true⟩,
  ⟨2, 2, .ro, .live, 0x0, true⟩,
  ⟨1, 1, .w1c, .live, 0x0, true⟩,
  ⟨0, 0, .ro, .live, 0x1, true⟩]⟩
def RT_STATUS_ESC_OCC : Fld := ⟨0x0000, 47, 40, 0x1⟩
def RT_STATUS_INJ_OCC : Fld := ⟨0x0000, 39, 32, 0x1⟩
def RT_STATUS_LINK_UP : Fld := ⟨0x0000, 7, 4, 0x1⟩
def RT_STATUS_THROTTLING : Fld := ⟨0x0000, 3, 3, 0x1⟩
def RT_STATUS_TBL_ACTIVE : Fld := ⟨0x0000, 2, 2, 0x1⟩
def RT_STATUS_CFG_LOCKED_WR : Fld := ⟨0x0000, 1, 1, 0x1⟩
def RT_STATUS_HOLE : Fld := ⟨0x0000, 0, 0, 0x1⟩
/-- RT_CFG, R275 (router). -/
def RT_CFG : RegDef := ⟨0x0008, [
  ⟨63, 56, .rw, .live, 0x30, true⟩,
  ⟨55, 52, .rw, .live, 0x8, true⟩,
  ⟨51, 40, .rw, .live, 0x100, true⟩,
  ⟨39, 36, .rw, .staged, 0x3, true⟩,
  ⟨35, 28, .rw, .staged, 0x6, true⟩,
  ⟨27, 2, .rsv, .live, 0x0, true⟩,
  ⟨1, 1, .rw, .live, 0x1, true⟩,
  ⟨0, 0, .rw, .staged, 0x0, true⟩]⟩
def RT_CFG_INJ_THRESH : Fld := ⟨0x0008, 63, 56, 0x3081003060000002⟩
def RT_CFG_INJ_RATE : Fld := ⟨0x0008, 55, 52, 0x3081003060000002⟩
def RT_CFG_ESC_THRESH : Fld := ⟨0x0008, 51, 40, 0x3081003060000002⟩
def RT_CFG_TR_MINDIST : Fld := ⟨0x0008, 39, 36, 0x3081003060000002⟩
def RT_CFG_TR_BIAS : Fld := ⟨0x0008, 35, 28, 0x3081003060000002⟩
def RT_CFG_INJ_STOP : Fld := ⟨0x0008, 1, 1, 0x3081003060000002⟩
def RT_CFG_TBL_SEL : Fld := ⟨0x0008, 0, 0, 0x3081003060000002⟩
/-- LINK_STATUS, R275 (router). -/
def LINK_STATUS (i : Nat) : RegDef := ⟨0x0040 + 8*i, [
  ⟨63, 56, .rsv, .live, 0x0, true⟩,
  ⟨55, 49, .ro, .live, 0x0, true⟩,
  ⟨48, 43, .ro, .live, 0x0, true⟩,
  ⟨42, 41, .ro, .live, 0x0, true⟩,
  ⟨40, 40, .ro, .live, 0x0, true⟩,
  ⟨39, 32, .ro, .live, 0x0, true⟩,
  ⟨31, 0, .ro, .live, 0x0, true⟩]⟩
def LINK_STATUS_LANES_FAILED (i : Nat) : Fld := ⟨0x0040 + 8*i, 55, 49, 0x0⟩
def LINK_STATUS_SPARES_USED (i : Nat) : Fld := ⟨0x0040 + 8*i, 48, 43, 0x0⟩
def LINK_STATUS_WIDTH (i : Nat) : Fld := ⟨0x0040 + 8*i, 42, 41, 0x0⟩
def LINK_STATUS_LONG (i : Nat) : Fld := ⟨0x0040 + 8*i, 40, 40, 0x0⟩
def LINK_STATUS_RETRAINS (i : Nat) : Fld := ⟨0x0040 + 8*i, 39, 32, 0x0⟩
def LINK_STATUS_REPLAYS (i : Nat) : Fld := ⟨0x0040 + 8*i, 31, 0, 0x0⟩
/-- LINK_CFG, R275 (router). -/
def LINK_CFG (i : Nat) : RegDef := ⟨0x0060 + 8*i, [
  ⟨63, 2, .rsv, .live, 0x0, true⟩,
  ⟨1, 1, .rw, .locked, 0x0, true⟩,
  ⟨0, 0, .rw, .locked, 0x0, true⟩]⟩
def LINK_CFG_FORCE_HALF (i : Nat) : Fld := ⟨0x0060 + 8*i, 1, 1, 0x0⟩
def LINK_CFG_DISABLE (i : Nat) : Fld := ⟨0x0060 + 8*i, 0, 0, 0x0⟩
/-- RT_COUNT, R275 (router). -/
def RT_COUNT (i : Nat) : RegDef := ⟨0x0080 + 8*i, [
  ⟨63, 0, .ro, .live, 0x0, true⟩]⟩
def RT_COUNT_W (i : Nat) : Fld := ⟨0x0080 + 8*i, 63, 0, 0x0⟩
/-- TRAFFIC, R327 (base). -/
def TRAFFIC (i : Nat) : RegDef := ⟨0x80000 + 8*i, [
  ⟨63, 0, .ro, .live, 0x0, true⟩]⟩
def TRAFFIC_W (i : Nat) : Fld := ⟨0x80000 + 8*i, 63, 0, 0x0⟩
/-- PH_STATUS, R276 (photonic). -/
def PH_STATUS : RegDef := ⟨0x0000, [
  ⟨63, 42, .rsv, .live, 0x0, true⟩,
  ⟨41, 32, .ro, .live, 0x0, true⟩,
  ⟨31, 4, .rsv, .live, 0x0, true⟩,
  ⟨3, 3, .ro, .live, 0x0, true⟩,
  ⟨2, 2, .ro, .live, 0x0, true⟩,
  ⟨1, 1, .w1c, .live, 0x0, true⟩,
  ⟨0, 0, .ro, .live, 0x0, true⟩]⟩
def PH_STATUS_PLANES_OK : Fld := ⟨0x0000, 41, 32, 0x0⟩
def PH_STATUS_COMB_LOCK : Fld := ⟨0x0000, 3, 3, 0x0⟩
def PH_STATUS_TUNING : Fld := ⟨0x0000, 2, 2, 0x0⟩
def PH_STATUS_CFG_LOCKED_WR : Fld := ⟨0x0000, 1, 1, 0x0⟩
def PH_STATUS_UP : Fld := ⟨0x0000, 0, 0, 0x0⟩
/-- PH_CFG, R276 (photonic). -/
def PH_CFG : RegDef := ⟨0x0008, [
  ⟨63, 2, .rsv, .live, 0x0, true⟩,
  ⟨1, 1, .wo, .live, 0x0, true⟩,
  ⟨0, 0, .rw, .locked, 0x1, true⟩]⟩
def PH_CFG_RETUNE : Fld := ⟨0x0008, 1, 1, 0x1⟩
def PH_CFG_DISABLE : Fld := ⟨0x0008, 0, 0, 0x1⟩
/-- PH_PAIR, R276 (photonic). -/
def PH_PAIR (i : Nat) : RegDef := ⟨0x0100 + 8*i, [
  ⟨63, 48, .rsv, .live, 0x0, true⟩,
  ⟨47, 38, .ro, .live, 0x0, true⟩,
  ⟨37, 28, .ro, .live, 0x0, true⟩,
  ⟨27, 18, .ro, .live, 0x0, true⟩,
  ⟨17, 12, .rsv, .live, 0x0, true⟩,
  ⟨11, 8, .ro, .live, 0x0, true⟩,
  ⟨7, 0, .ro, .live, 0x0, true⟩]⟩
def PH_PAIR_WORKING (i : Nat) : Fld := ⟨0x0100 + 8*i, 47, 38, 0x0⟩
def PH_PAIR_SPARE (i : Nat) : Fld := ⟨0x0100 + 8*i, 37, 28, 0x0⟩
def PH_PAIR_FAILED (i : Nat) : Fld := ⟨0x0100 + 8*i, 27, 18, 0x0⟩
def PH_PAIR_NWORK (i : Nat) : Fld := ⟨0x0100 + 8*i, 11, 8, 0x0⟩
def PH_PAIR_OCC (i : Nat) : Fld := ⟨0x0100 + 8*i, 7, 0, 0x0⟩
/-- FREQ_STATUS, R358 (dome). -/
def FREQ_STATUS : RegDef := ⟨0x4000, [
  ⟨63, 48, .ro, .live, 0x0, true⟩,
  ⟨47, 42, .rsv, .live, 0x0, true⟩,
  ⟨41, 40, .ro, .live, 0x0, true⟩,
  ⟨39, 0, .ro, .live, 0x0, true⟩]⟩
def FREQ_STATUS_CHANGE_ID : Fld := ⟨0x4000, 63, 48, 0x0⟩
def FREQ_STATUS_STATE : Fld := ⟨0x4000, 41, 40, 0x0⟩
def FREQ_STATUS_LATE : Fld := ⟨0x4000, 39, 0, 0x0⟩
/-- PCL_STATUS, R358 (dome). -/
def PCL_STATUS (i : Nat) : RegDef := ⟨0x5000 + 8*i, [
  ⟨63, 48, .ro, .live, 0x0, true⟩,
  ⟨47, 32, .ro, .live, 0x0, true⟩,
  ⟨31, 24, .ro, .live, 0x0, true⟩,
  ⟨23, 16, .ro, .live, 0x0, true⟩,
  ⟨15, 2, .rsv, .live, 0x0, true⟩,
  ⟨1, 1, .ro, .live, 0x0, true⟩,
  ⟨0, 0, .ro, .live, 0x0, true⟩]⟩
def PCL_STATUS_INPUT_MV (i : Nat) : Fld := ⟨0x5000 + 8*i, 63, 48, 0x0⟩
def PCL_STATUS_INPUT_10MA (i : Nat) : Fld := ⟨0x5000 + 8*i, 47, 32, 0x0⟩
def PCL_STATUS_RETRIES (i : Nat) : Fld := ⟨0x5000 + 8*i, 31, 24, 0x0⟩
def PCL_STATUS_CRC_ERRORS (i : Nat) : Fld := ⟨0x5000 + 8*i, 23, 16, 0x0⟩
def PCL_STATUS_MASTER (i : Nat) : Fld := ⟨0x5000 + 8*i, 1, 1, 0x0⟩
def PCL_STATUS_UP (i : Nat) : Fld := ⟨0x5000 + 8*i, 0, 0, 0x0⟩
/-- TH_PANEL, R378 (dome). -/
def TH_PANEL : RegDef := ⟨0x6000, [
  ⟨63, 48, .ro, .live, 0x12C0, true⟩,
  ⟨47, 32, .ro, .live, 0x0, true⟩,
  ⟨31, 24, .ro, .live, 0x0, true⟩,
  ⟨23, 16, .ro, .live, 0x0, true⟩,
  ⟨15, 2, .rsv, .live, 0x0, true⟩,
  ⟨1, 0, .ro, .live, 0x0, true⟩]⟩
def TH_PANEL_CEIL_COOL_W : Fld := ⟨0x6000, 63, 48, 0x12C0000000000000⟩
def TH_PANEL_FLOW : Fld := ⟨0x6000, 47, 32, 0x12C0000000000000⟩
def TH_PANEL_INLET : Fld := ⟨0x6000, 31, 24, 0x12C0000000000000⟩
def TH_PANEL_RISE : Fld := ⟨0x6000, 23, 16, 0x12C0000000000000⟩
def TH_PANEL_HOLD : Fld := ⟨0x6000, 1, 0, 0x12C0000000000000⟩
/-- ERR_STATUS, R419 (dome). -/
def ERR_STATUS : RegDef := ⟨0x7000, [
  ⟨63, 32, .ro, .live, 0x0, true⟩,
  ⟨31, 23, .ro, .live, 0x0, true⟩,
  ⟨22, 20, .ro, .live, 0x7, true⟩,
  ⟨19, 19, .ro, .live, 0x0, true⟩,
  ⟨18, 18, .ro, .live, 0x0, true⟩,
  ⟨17, 2, .ro, .live, 0x0, true⟩,
  ⟨1, 0, .rsv, .live, 0x0, true⟩]⟩
def ERR_STATUS_SEQNO : Fld := ⟨0x7000, 63, 32, 0x700000⟩
def ERR_STATUS_QUEUED : Fld := ⟨0x7000, 31, 23, 0x700000⟩
def ERR_STATUS_HANDLING : Fld := ⟨0x7000, 22, 20, 0x700000⟩
def ERR_STATUS_STORM : Fld := ⟨0x7000, 19, 19, 0x700000⟩
def ERR_STATUS_SOLE : Fld := ⟨0x7000, 18, 18, 0x700000⟩
def ERR_STATUS_LOG_DROPPED : Fld := ⟨0x7000, 17, 2, 0x700000⟩
/-- ERR_CFG, R419 (dome). -/
def ERR_CFG : RegDef := ⟨0x7008, [
  ⟨63, 54, .rw, .live, 0x190, true⟩,
  ⟨53, 53, .rw, .live, 0x1, true⟩,
  ⟨52, 0, .rsv, .live, 0x0, true⟩]⟩
def ERR_CFG_EXPEL_SCORE : Fld := ⟨0x7008, 63, 54, 0x6420000000000000⟩
def ERR_CFG_UNCONT_RESET : Fld := ⟨0x7008, 53, 53, 0x6420000000000000⟩
/-- EXPEL_STATUS, R419 (dome). -/
def EXPEL_STATUS : RegDef := ⟨0x7010, [
  ⟨63, 56, .ro, .live, 0x0, true⟩,
  ⟨55, 48, .ro, .live, 0x0, true⟩,
  ⟨47, 40, .ro, .live, 0x0, true⟩,
  ⟨39, 0, .rsv, .live, 0x0, true⟩]⟩
def EXPEL_STATUS_WAITING : Fld := ⟨0x7010, 63, 56, 0x0⟩
def EXPEL_STATUS_PROBATION : Fld := ⟨0x7010, 55, 48, 0x0⟩
def EXPEL_STATUS_LAST_HOUR : Fld := ⟨0x7010, 47, 40, 0x0⟩
/-- BOOT_STATUS, R453 (dome). -/
def BOOT_STATUS : RegDef := ⟨0x9000, [
  ⟨63, 56, .ro, .live, 0x0, true⟩,
  ⟨55, 48, .ro, .live, 0x0, true⟩,
  ⟨47, 40, .ro, .live, 0x0, true⟩,
  ⟨39, 38, .ro, .live, 0x0, true⟩,
  ⟨37, 37, .ro, .live, 0x0, true⟩,
  ⟨36, 36, .ro, .live, 0x0, true⟩,
  ⟨35, 32, .ro, .live, 0x0, true⟩,
  ⟨31, 0, .ro, .live, 0x0, true⟩]⟩
def BOOT_STATUS_STAGE : Fld := ⟨0x9000, 63, 56, 0x0⟩
def BOOT_STATUS_FUSES : Fld := ⟨0x9000, 55, 48, 0x0⟩
def BOOT_STATUS_IMG_SVN : Fld := ⟨0x9000, 47, 40, 0x0⟩
def BOOT_STATUS_SLOT : Fld := ⟨0x9000, 39, 38, 0x0⟩
def BOOT_STATUS_PENDING : Fld := ⟨0x9000, 37, 37, 0x0⟩
def BOOT_STATUS_DEBUG : Fld := ⟨0x9000, 36, 36, 0x0⟩
def BOOT_STATUS_SCOPE : Fld := ⟨0x9000, 35, 32, 0x0⟩
def BOOT_STATUS_READY_MS : Fld := ⟨0x9000, 31, 0, 0x0⟩
/-- FAC_STATUS, R471 (dome). -/
def FAC_STATUS : RegDef := ⟨0xB000, [
  ⟨63, 48, .ro, .live, 0x0, true⟩,
  ⟨47, 40, .ro, .live, 0x0, true⟩,
  ⟨39, 32, .ro, .live, 0x0, true⟩,
  ⟨31, 24, .ro, .live, 0x0, true⟩,
  ⟨23, 17, .rsv, .live, 0x0, true⟩,
  ⟨16, 16, .ro, .live, 0x0, true⟩,
  ⟨15, 8, .ro, .live, 0x0, true⟩,
  ⟨7, 5, .rsv, .live, 0x0, true⟩,
  ⟨4, 4, .ro, .live, 0x1, true⟩,
  ⟨3, 3, .ro, .live, 0x0, true⟩,
  ⟨2, 2, .ro, .live, 0x0, true⟩,
  ⟨1, 1, .ro, .live, 0x0, true⟩,
  ⟨0, 0, .ro, .live, 0x0, true⟩]⟩
def FAC_STATUS_RACK_ID : Fld := ⟨0xB000, 63, 48, 0x10⟩
def FAC_STATUS_GRANT_SEQ : Fld := ⟨0xB000, 47, 40, 0x10⟩
def FAC_STATUS_ESTOP : Fld := ⟨0xB000, 39, 32, 0x10⟩
def FAC_STATUS_CONFLICTS : Fld := ⟨0xB000, 31, 24, 0x10⟩
def FAC_STATUS_ON_BACKUP : Fld := ⟨0xB000, 16, 16, 0x10⟩
def FAC_STATUS_BACKUP_S : Fld := ⟨0xB000, 15, 8, 0x10⟩
def FAC_STATUS_SAFE : Fld := ⟨0xB000, 4, 4, 0x10⟩
def FAC_STATUS_HELD : Fld := ⟨0xB000, 3, 3, 0x10⟩
def FAC_STATUS_FB_UP : Fld := ⟨0xB000, 2, 2, 0x10⟩
def FAC_STATUS_FA_UP : Fld := ⟨0xB000, 1, 1, 0x10⟩
def FAC_STATUS_FACILITY_UP : Fld := ⟨0xB000, 0, 0, 0x10⟩
/-- FAC_CH, R471 (dome). -/
def FAC_CH (i : Nat) : RegDef := ⟨0xB008 + 8*i, [
  ⟨63, 48, .ro, .live, 0x0, true⟩,
  ⟨47, 32, .ro, .live, 0x0, true⟩,
  ⟨31, 24, .ro, .live, 0x0, true⟩,
  ⟨23, 16, .ro, .live, 0x0, true⟩,
  ⟨15, 8, .ro, .live, 0x0, true⟩,
  ⟨7, 0, .ro, .live, 0x0, true⟩]⟩
def FAC_CH_CRC_ERR (i : Nat) : Fld := ⟨0xB008 + 8*i, 63, 48, 0x0⟩
def FAC_CH_GAPS (i : Nat) : Fld := ⟨0xB008 + 8*i, 47, 32, 0x0⟩
def FAC_CH_REPEATS (i : Nat) : Fld := ⟨0xB008 + 8*i, 31, 24, 0x0⟩
def FAC_CH_REJECTS (i : Nat) : Fld := ⟨0xB008 + 8*i, 23, 16, 0x0⟩
def FAC_CH_RESYNCS (i : Nat) : Fld := ⟨0xB008 + 8*i, 15, 8, 0x0⟩
def FAC_CH_BAD (i : Nat) : Fld := ⟨0xB008 + 8*i, 7, 0, 0x0⟩
/-- FAC_VALUES, R471 (dome). -/
def FAC_VALUES : RegDef := ⟨0xB018, [
  ⟨63, 48, .ro, .live, 0x12C0, true⟩,
  ⟨47, 32, .ro, .live, 0x0, true⟩,
  ⟨31, 16, .ro, .live, 0x0, true⟩,
  ⟨15, 0, .ro, .live, 0x0, true⟩]⟩
def FAC_VALUES_CEILING_W : Fld := ⟨0xB018, 63, 48, 0x12C0000000000000⟩
def FAC_VALUES_FLOW : Fld := ⟨0xB018, 47, 32, 0x12C0000000000000⟩
def FAC_VALUES_TIN : Fld := ⟨0xB018, 31, 16, 0x12C0000000000000⟩
def FAC_VALUES_TOUT : Fld := ⟨0xB018, 15, 0, 0x12C0000000000000⟩
/-- FUNC_STATUS, R283 (bar). -/
def FUNC_STATUS : RegDef := ⟨0x0040, [
  ⟨63, 57, .rsv, .live, 0x0, false⟩,
  ⟨56, 50, .ro, .live, 0x7F, false⟩,
  ⟨49, 49, .ro, .live, 0x0, false⟩,
  ⟨48, 48, .ro, .live, 0x0, false⟩,
  ⟨47, 16, .rsv, .live, 0x0, false⟩,
  ⟨15, 8, .ro, .live, 0x0, false⟩,
  ⟨7, 4, .rsv, .live, 0x0, false⟩,
  ⟨3, 3, .ro, .live, 0x0, false⟩,
  ⟨2, 2, .ro, .live, 0x0, false⟩,
  ⟨1, 1, .w1c, .live, 0x0, false⟩,
  ⟨0, 0, .w1c, .live, 0x0, false⟩]⟩
def FUNC_STATUS_PART : Fld := ⟨0x0040, 56, 50, 0x1FC000000000000⟩
def FUNC_STATUS_BOUND : Fld := ⟨0x0040, 49, 49, 0x1FC000000000000⟩
def FUNC_STATUS_ADMIN : Fld := ⟨0x0040, 48, 48, 0x1FC000000000000⟩
def FUNC_STATUS_DB_ERRORS : Fld := ⟨0x0040, 15, 8, 0x1FC000000000000⟩
def FUNC_STATUS_RQ_STALLED : Fld := ⟨0x0040, 3, 3, 0x1FC000000000000⟩
def FUNC_STATUS_CQ_HELD : Fld := ⟨0x0040, 2, 2, 0x1FC000000000000⟩
def FUNC_STATUS_CFG_LOCKED_WR : Fld := ⟨0x0040, 1, 1, 0x1FC000000000000⟩
def FUNC_STATUS_RINGS_LOST : Fld := ⟨0x0040, 0, 0, 0x1FC000000000000⟩
/-- FUNC_CTRL, R283 (bar). -/
def FUNC_CTRL : RegDef := ⟨0x0048, [
  ⟨63, 1, .rsv, .live, 0x0, false⟩,
  ⟨0, 0, .wo, .live, 0x0, false⟩]⟩
def FUNC_CTRL_RING_RESET : Fld := ⟨0x0048, 0, 0, 0x0⟩
/-- OFFERED, R283 (bar). -/
def OFFERED : RegDef := ⟨0x0080, [
  ⟨63, 0, .ro, .live, 0x0, false⟩]⟩
def OFFERED_W : Fld := ⟨0x0080, 63, 0, 0x0⟩
/-- SQ_BASE, R283 (bar). -/
def SQ_BASE (i : Nat) : RegDef := ⟨0x0100 + 0x10*i, [
  ⟨63, 12, .rw, .locked, 0x0, false⟩,
  ⟨11, 0, .rsv, .live, 0x0, false⟩]⟩
def SQ_BASE_W (i : Nat) : Fld := ⟨0x0100 + 0x10*i, 63, 12, 0x0⟩
/-- SQ_CFG, R283 (bar). -/
def SQ_CFG (i : Nat) : RegDef := ⟨0x0108 + 0x10*i, [
  ⟨63, 48, .ro, .live, 0x0, false⟩,
  ⟨47, 20, .rsv, .live, 0x0, false⟩,
  ⟨19, 16, .rw, .locked, 0x4, false⟩,
  ⟨15, 8, .rw, .live, 0x1, false⟩,
  ⟨7, 1, .rsv, .live, 0x0, false⟩,
  ⟨0, 0, .rw, .live, 0x0, false⟩]⟩
def SQ_CFG_HEAD (i : Nat) : Fld := ⟨0x0108 + 0x10*i, 63, 48, 0x40100⟩
def SQ_CFG_LOG2SIZE (i : Nat) : Fld := ⟨0x0108 + 0x10*i, 19, 16, 0x40100⟩
def SQ_CFG_WEIGHT (i : Nat) : Fld := ⟨0x0108 + 0x10*i, 15, 8, 0x40100⟩
def SQ_CFG_ENABLE (i : Nat) : Fld := ⟨0x0108 + 0x10*i, 0, 0, 0x40100⟩
/-- RQ_BASE, R283 (bar). -/
def RQ_BASE : RegDef := ⟨0x0180, [
  ⟨63, 12, .rw, .locked, 0x0, false⟩,
  ⟨11, 0, .rsv, .live, 0x0, false⟩]⟩
def RQ_BASE_W : Fld := ⟨0x0180, 63, 12, 0x0⟩
/-- RQ_CFG, R283 (bar). -/
def RQ_CFG : RegDef := ⟨0x0188, [
  ⟨63, 48, .ro, .live, 0x0, false⟩,
  ⟨47, 32, .rw, .live, 0x0, false⟩,
  ⟨31, 24, .rw, .live, 0x1, false⟩,
  ⟨23, 20, .rsv, .live, 0x0, false⟩,
  ⟨19, 16, .rw, .locked, 0x4, false⟩,
  ⟨15, 1, .rsv, .live, 0x0, false⟩,
  ⟨0, 0, .rw, .live, 0x0, false⟩]⟩
def RQ_CFG_TAIL : Fld := ⟨0x0188, 63, 48, 0x1040000⟩
def RQ_CFG_HOLDOFF : Fld := ⟨0x0188, 47, 32, 0x1040000⟩
def RQ_CFG_COALESCE : Fld := ⟨0x0188, 31, 24, 0x1040000⟩
def RQ_CFG_LOG2SIZE : Fld := ⟨0x0188, 19, 16, 0x1040000⟩
def RQ_CFG_ENABLE : Fld := ⟨0x0188, 0, 0, 0x1040000⟩
/-- CQ_BASE, R283 (bar). -/
def CQ_BASE : RegDef := ⟨0x0190, [
  ⟨63, 12, .rw, .locked, 0x0, false⟩,
  ⟨11, 0, .rsv, .live, 0x0, false⟩]⟩
def CQ_BASE_W : Fld := ⟨0x0190, 63, 12, 0x0⟩
/-- CQ_CFG, R283 (bar). -/
def CQ_CFG : RegDef := ⟨0x0198, [
  ⟨63, 48, .ro, .live, 0x0, false⟩,
  ⟨47, 32, .rw, .live, 0x0, false⟩,
  ⟨31, 24, .rw, .live, 0x1, false⟩,
  ⟨23, 20, .rsv, .live, 0x0, false⟩,
  ⟨19, 16, .rw, .locked, 0x4, false⟩,
  ⟨15, 1, .rsv, .live, 0x0, false⟩,
  ⟨0, 0, .rw, .live, 0x0, false⟩]⟩
def CQ_CFG_TAIL : Fld := ⟨0x0198, 63, 48, 0x1040000⟩
def CQ_CFG_HOLDOFF : Fld := ⟨0x0198, 47, 32, 0x1040000⟩
def CQ_CFG_COALESCE : Fld := ⟨0x0198, 31, 24, 0x1040000⟩
def CQ_CFG_LOG2SIZE : Fld := ⟨0x0198, 19, 16, 0x1040000⟩
def CQ_CFG_ENABLE : Fld := ⟨0x0198, 0, 0, 0x1040000⟩
/-- LOG_BASE, R283 (bar). -/
def LOG_BASE : RegDef := ⟨0x01A0, [
  ⟨63, 12, .ro, .live, 0x0, false⟩,
  ⟨11, 0, .rsv, .live, 0x0, false⟩]⟩
def LOG_BASE_W : Fld := ⟨0x01A0, 63, 12, 0x0⟩
/-- LOG_CFG, R283 (bar). -/
def LOG_CFG : RegDef := ⟨0x01A8, [
  ⟨63, 48, .ro, .live, 0x0, false⟩,
  ⟨47, 20, .rsv, .live, 0x0, false⟩,
  ⟨19, 16, .ro, .live, 0x4, false⟩,
  ⟨15, 1, .rsv, .live, 0x0, false⟩,
  ⟨0, 0, .ro, .live, 0x0, false⟩]⟩
def LOG_CFG_TAIL : Fld := ⟨0x01A8, 63, 48, 0x40000⟩
def LOG_CFG_LOG2SIZE : Fld := ⟨0x01A8, 19, 16, 0x40000⟩
def LOG_CFG_ENABLE : Fld := ⟨0x01A8, 0, 0, 0x40000⟩
/-- SQ_TAIL, R283 (bar). -/
def SQ_TAIL (i : Nat) : RegDef := ⟨0x1000 + 8*i, [
  ⟨63, 16, .rsv, .live, 0x0, false⟩,
  ⟨15, 0, .wo, .live, 0x0, false⟩]⟩
def SQ_TAIL_W (i : Nat) : Fld := ⟨0x1000 + 8*i, 15, 0, 0x0⟩
/-- RQ_HEAD, R283 (bar). -/
def RQ_HEAD : RegDef := ⟨0x1040, [
  ⟨63, 16, .rsv, .live, 0x0, false⟩,
  ⟨15, 0, .wo, .live, 0x0, false⟩]⟩
def RQ_HEAD_W : Fld := ⟨0x1040, 15, 0, 0x0⟩
/-- CQ_HEAD, R283 (bar). -/
def CQ_HEAD : RegDef := ⟨0x1048, [
  ⟨63, 16, .rsv, .live, 0x0, false⟩,
  ⟨15, 0, .wo, .live, 0x0, false⟩]⟩
def CQ_HEAD_W : Fld := ⟨0x1048, 15, 0, 0x0⟩
/-- LOG_HEAD, R283 (bar). -/
def LOG_HEAD : RegDef := ⟨0x1050, [
  ⟨63, 16, .rsv, .live, 0x0, false⟩,
  ⟨15, 0, .wo, .live, 0x0, false⟩]⟩
def LOG_HEAD_W : Fld := ⟨0x1050, 15, 0, 0x0⟩
end Sys2Proof.Machine
end

