-- ==== Sys2Proof/Machine/State.lean ====
section
/-! DEFINITION. The state of the panel as plain data, the reasons a command can stop, and the state after
reset. Every register of the manual has one home, `State.regs`, keyed by where it lies (RegAddr.page and
RegAddr.off in Machine/Access.lean); what the manual gives the panel besides registers (queues, tiles, transactions,
packets, handles, partitions, the Almanac and so on) stands in the structures below. -/

namespace Sys2Proof.Machine

/-- Why a command stops. -/
inductive Fault where
  /-- Raised by every command that names a unit the panel does not have (a site above 6,143, a die above
  383, a unit its part omits under R2). SAFE: nothing on the panel responds, and no claim is made. -/
  | absentUnit
  deriving DecidableEq, Repr

/-- Why a command is refused by the model. -/
inductive Refusal where
  /-- Raised by an arm of `exec` whose command has no meaning yet. SAFE. -/
  | notModelled (mnemonic : String)
  deriving DecidableEq, Repr

/-- Sequencer states of R121. -/
inductive SeqState where
  | idle | run | wait | frozen | halted | faulted
  deriving DecidableEq, Repr

/-- Why a sequencer stalls (WAIT_REASON of R130) and what ends the stall (R101, R102, R113–R118). -/
inductive Stall where
  /-- WAIT until counter `k` is at least `v` (R113). -/
  | counter (k v : Nat)
  /-- an issue to a full queue: engine 1 MAC, 2 vector, 3 edge, 4 DMA, with the stalled instruction (R102). -/
  | queueFull (engine : Nat) (insn : W64)
  /-- FENCE over the selected work (R115); `halt` and `epoch` act as FENCE 0x1F first (R117, R118). -/
  | fence (x : Nat)
  | haltFence
  | epochFence
  /-- SIGNAL with RELEASE waits for the writes issued before it (R114). -/
  | release (insn : W64)
  /-- HALT after its fence: waits for the Finder (R117). -/
  | finder
  /-- EPOCH after its arrival: waits for the commit (R118). -/
  | epochCommit
  deriving DecidableEq, Repr

/-- Four 64-bit words: a descriptor (R57, R107, R167), a fault record (R126), a precision record (R90), a
completion record or a notice (R295, R296). -/
structure Quad where
  w0 : W64
  w1 : W64
  w2 : W64
  w3 : W64
  deriving DecidableEq, Repr

/-- A descriptor in an engine's queue, with the PC, the instruction and the descriptor word that issued it
(R103, R126). -/
structure QEntry where
  d : Quad
  pc : Nat
  insn : W64
  word : Nat
  deriving DecidableEq, Repr

/-- A weight tile in a weight buffer (R33, R44): its format code, its class, the image as one little-endian
number, and the residues modulo 7 stored with its elements, or with the catalogue values of each group (R65), at
3 bits each. -/
structure WBuf where
  fmt : Nat
  cls : Nat
  img : Nat
  res : Nat
  deriving DecidableEq, Repr

/-- A halo element waiting in the halo unit (R53–R55): its run, its row, the correction d, and the exact
weights of its row k as mantissa and exponent. -/
structure HaloElem where
  run : Nat
  row : Nat
  d : W32
  wq : List (Int × Int)
  deriving DecidableEq, Repr

/-- A sampled accumulator entry (R70–R72, R79): the value captured before the first update, the Finder's
result so far, the largest magnitude met as an FP32 word, the numbers of blocks, the halo corrections in
ascending k, what the array's own additions of the descriptor have made of the captured value, in the order they
landed (log entry 64), and for a drift sample the shadow contribution s as mantissa and exponent. -/
structure FSample where
  e : Nat
  cap : W32
  f : W32
  vmax : W32
  blocks : Nat
  corr : List W32
  a : W32
  sh : Int × Int
  deriving DecidableEq, Repr

/-- Where a descriptor stands in the MAC array (R58–R60, R85, R86). -/
inductive MacPhase where
  | scan | ready | stream | landed | read
  deriving DecidableEq, Repr

/-- A descriptor that has left the MAC queue (R58): its class now (0 8-bit, 1 W4A8, 2 4-bit, 3 2-bit,
4 binary), steps of promotion taken, phase, next row over all sub-passes, whether that row is being replayed,
whether drift has been evaluated, event counts by kind of R81, kinds that fired at any evaluation (bits),
largest drift (FP16), the entries drawn for the Finder and for drift, and the samples taken. -/
structure MacRun where
  id : Nat
  q : QEntry
  cls : Nat
  steps : Nat
  phase : MacPhase
  row : Nat
  replay : Bool
  driftDone : Bool
  cnt : Tab Nat
  fired : Nat
  dmax : Nat
  picks : List Nat
  dpicks : List Nat
  samples : List FSample
  drifts : List FSample
  /-- sampled entries whose written output the Finder's own does not accept (R73) -/
  badOut : List Nat
  /-- its weights are in its buffer, loaded by WLOAD or held there before (R59) -/
  loaded : Bool
  /-- it has begun to stream, in whichever of its runs (R58) -/
  begun : Bool
  deriving DecidableEq, Repr

/-- One comparison the Finder still owes (R71–R75): the sample and the array's final value, and whether the
output code it recomputes from the written tile matches (R73). -/
structure FinderJob where
  opid : W32
  pc : Nat
  insn : W64
  word : Nat
  s : FSample
  a : W32
  outOk : Bool
  /-- products the Finder forms in a cycle of the descriptor's class (R76) -/
  rate : Nat
  deriving DecidableEq, Repr

/-- The MAC array of one core (R33) with its Finder (R70). -/
structure Mac where
  q : List QEntry
  runs : List MacRun
  nextRun : Nat
  wbuf0 : Option WBuf
  wbuf1 : Option WBuf
  acc : Tab W32
  /-- N of the descriptor that last cleared the accumulator file; none after a core reset (R58). -/
  accN : Option Nat
  halo : List HaloElem
  finder : List FinderJob
  /-- INJECT: the next residue comparison is inverted, the next Finder comparison mismatches (R91). -/
  injRes : Bool
  injFind : Bool
  /-- the Finder's backlog in 1/1,024 of a cycle (R76, R80) -/
  backlog : Nat
  pw : List Quad
  gen : W64
  findGen : W64
  deriving DecidableEq, Repr

/-- An entry of the segment carry register (R148). -/
inductive Carry where
  | fp (v : W32)
  | int (v : W64)
  deriving DecidableEq, Repr

/-- A vector instruction in the vector queue with what VADDR resolved to at its issue (R138): the address and
the row pitch; and how many of its repeats have finished (R137, R161). One that has finished stands there until every
earlier one has (R158). -/
structure VEntry where
  w : W64
  addr : Int
  pitch : Nat
  pc : Nat
  reps : Nat
  deriving DecidableEq, Repr

/-- The vector engine of one core (R133). -/
structure Vec where
  t : Tab TileW
  m : Tab W1024
  carry : Tab Carry
  chain : Tab (BitVec 1152)
  q : List VEntry
  gen : W64
  deriving DecidableEq, Repr

/-- Where a byte of the panel lies: router, endpoint, byte offset in that unit, and its cache line (R224). -/
structure Dest where
  router : Nat
  dep : Nat
  off : Nat
  key : Option Nat
  deriving DecidableEq, Repr

/-- One transaction a DMA operation or a gather still has to issue: `len` bytes between the scratchpad byte
`land` and the panel address; `mask` is not zero for a multicast (R108). Where it goes and the partition it carries are
fixed when its transfer is taken (R218), and `rep` is the address that a refusal or a timeout of it reports (R112, R176). -/
structure TxReq where
  addr : W64
  land : Nat
  len : Nat
  mask : Nat
  dst : Option Dest
  part : Nat
  rep : W64
  deriving DecidableEq, Repr

/-- A gathered row of which bytes have come (R174, R187): its operation and number, where it lands and its length, and
what has come of it: scratchpad byte, length, value, and whether it is poisoned. -/
structure RowBuf where
  op : Nat
  row : Nat
  land : Nat
  len : Nat
  got : List (Nat × Nat × Nat × Bool)
  deriving DecidableEq, Repr

/-- A GATHER or SCATTER in flight (R176, R181, R186): the next identifier to take, the transactions of rows
taken that wait to be issued (row, transaction), and the rows it has output. -/
structure EdgeOp where
  id : Nat
  q : QEntry
  next : Nat
  todo : List (Nat × TxReq)
  made : Nat
  deriving DecidableEq, Repr

/-- The edge engine of one core (R162–R188). -/
structure Edge where
  q : List QEntry
  ops : List EdgeOp
  nextOp : Nat
  /-- rows requested and not yet written -/
  rows : List RowBuf
  /-- The set held in the key store by KEEP (R179). -/
  keyset : Option (List Nat)
  /-- The map cache: (shard, its entry's two words), most recent first (R165). -/
  mapCache : List (Nat × W64 × W64)
  gen : W64
  deriving DecidableEq, Repr

/-- A DMA descriptor the agent runs (R102, R108, R110): what it has still to issue; `done` once its counter has
advanced, while acknowledgements of it are still due (R111). -/
structure DmaOp where
  id : Nat
  q : QEntry
  todo : List TxReq
  done : Bool
  deriving DecidableEq, Repr

/-- The DMA/network agent of one core. -/
structure Dma where
  q : List QEntry
  ops : List DmaOp
  nextOp : Nat
  deriving DecidableEq, Repr

/-- A map-table entry of a spare row (R206): 0 FREE, 1 MAPPED, 2 BAD, and the logical row. -/
structure MapEntry where
  state : Nat
  lrow : Nat
  deriving DecidableEq, Repr

/-- A row the Survey engine holds (R203, R205): bank and physical row; `failed` once a March read differed. -/
structure SurveyHold where
  bank : Nat
  row : Nat
  failed : Bool
  deriving DecidableEq, Repr

/-- A migration in progress (R207). -/
structure Migration where
  bank : Nat
  entry : Nat
  lrow : Nat
  source : Bool
  deriving DecidableEq, Repr

/-- The scratchpad machinery of one core besides its bytes (R192, R202–R207): map tables keyed by
64·bank + entry, corrected-error trackers (bank, physical row, count), granules whose write-back is
pending, the row under test, the migration, and what the Survey engine's 256-byte save buffer was left with by the
last row it held data of, with the poisoned granules among its 32 (R203). -/
structure Sp where
  maps : Tab MapEntry
  track : List (Nat × Nat × Nat)
  scrub : List Nat
  hold : Option SurveyHold
  mig : Option Migration
  buf : BitVec 2048
  bufPoison : List Nat
  deriving DecidableEq, Repr

/-- One core site: general registers, completion counters, stall, the state it was frozen from, its place
in a partition and job, its engines and its scratchpad machinery. -/
structure Core where
  c : Tab W64
  k : Tab (BitVec 16)
  seq : SeqState
  pc : Nat
  /-- the instruction buffer: the addresses of the 256 instructions most recently fetched, latest first (R95) -/
  ibuf : List Nat
  stall : Option Stall
  frozenFrom : SeqState
  launch : Quad
  lcore : Nat
  part : Nat
  handle : W32
  /-- the core waits at EPOCH with its arrival reported; its mirror copy for this barrier is complete -/
  arrived : Bool
  copied : Bool
  mac : Mac
  vec : Vec
  edge : Edge
  dma : Dma
  sp : Sp
  deriving DecidableEq, Repr

/-- A packet header (R246). -/
structure Hdr where
  drouter : Nat
  dep : Nat
  srouter : Nat
  sep : Nat
  part : Nat
  tag : Nat
  pidx : Nat
  last : Bool
  vc : Nat
  type : Nat
  rb : Nat
  arg : BitVec 36
  deriving DecidableEq, Repr

/-- Where a packet is: in a router's injection queue (R266), in a buffer of a router's input (0–3 the links of R254, 4
LOCAL; R259), sent on a link under a link sequence number and held in its replay buffer unaccepted, with the times it
has failed its CRC (R256), in a photonic engine's queue for a destination block (R268), held on a wavelength
unaccepted (R269), or at its destination endpoint. -/
inductive PktLoc where
  | injq (r : Nat)
  | router (r inp : Nat)
  | link (r p seq fails : Nat)
  | engine (b t : Nat)
  | wave (b t plane : Nat)
  | endpoint
  deriving DecidableEq, Repr

/-- A packet in the fabric (R245). -/
structure Packet where
  id : Nat
  h : Hdr
  data : W256
  loc : PktLoc
  deriving DecidableEq, Repr

/-- What a transaction is for: a DMA operation of a core, a row of a gather or an atomic of a scatter, a
SIGNAL, or a remote-data-cache fill. -/
inductive TxUse where
  | dma (site op : Nat)
  | edge (site op row : Nat)
  | sig (site pc : Nat) (insn : W64)
  | fill (die : Nat)
  deriving DecidableEq, Repr

/-- An open transaction at its issuer (R236, R251, R252): source endpoint and tag, use, whether it is a write
counted in UNACKED (R111), the panel address, the address a refusal or timeout of it reports, where a read lands, packets counted, the
total once known, and the acknowledgements still due. -/
structure Tx where
  srouter : Nat
  sep : Nat
  tag : Nat
  use : TxUse
  write : Bool
  addr : W64
  rep : W64
  part : Nat
  land : Nat
  first : Nat
  len : Nat
  count : Nat
  total : Option Nat
  acks : Nat
  deriving DecidableEq, Repr

/-- An open write at a destination (R251–R253); `closed` once the destination has closed it by timeout or error. -/
structure Rx where
  srouter : Nat
  sep : Nat
  tag : Nat
  drouter : Nat
  dep : Nat
  part : Nat
  count : Nat
  total : Option Nat
  refused : Option Nat
  closed : Bool
  deriving DecidableEq, Repr

/-- A valid line of a die's remote-data cache (R224, R225). -/
structure CLine where
  key : Nat
  way : Nat
  part : Nat
  ep : Nat
  data : W1024
  deriving DecidableEq, Repr

/-- A request waiting for a cache fill (R227): which transaction use, where its bytes land, their place in
the line, its panel address, and the address a refusal or timeout of it reports. -/
structure Waiter where
  use : TxUse
  land : Nat
  off : Nat
  len : Nat
  addr : W64
  rep : W64
  deriving DecidableEq, Repr

/-- A cache fill in flight (R227, R228): `install` is cleared by an invalidation or a write of its line; `poison`
has bit i set when word i arrived poisoned. -/
structure CFill where
  die : Nat
  tag : Nat
  key : Nat
  part : Nat
  ep : Nat
  install : Bool
  words : Tab W256
  poison : Nat
  waiters : List Waiter
  deriving DecidableEq, Repr

/-- An open read-combining entry (R230): at a slice (`unit` = slice number) or at a scratchpad window
(`unit` = 10000 + site), the line's address, the partition, requesters joined, the line read and its poisoned words
(bit i for word i). -/
structure Combine where
  unit : Nat
  line : Nat
  part : Nat
  count : Nat
  data : W1024
  poison : Nat
  deriving DecidableEq, Repr

/-- An invalidation of a die's cache that runs (R228, R229): the CINV that waits for it (site and operation), or
the write of CACHE_CMD to acknowledge (source router, endpoint, tag). -/
structure Inv where
  die : Nat
  op : Option (Nat × Nat)
  ack : Option (Nat × Nat × Nat)
  deriving DecidableEq, Repr

/-- A mesh link direction (R255–R257), keyed 4·router + port: down, waiting for the last-accepted report, the
sequence number of the next packet sent, failed lanes, lanes whose spare is being trained. -/
structure Link where
  up : Bool
  reportDue : Bool
  seq : Nat
  failed : List Nat
  spared : List Nat
  training : List Nat
  deriving DecidableEq, Repr

/-- The fabric: packets in the order in which each came to where it is, transactions, what is open at destinations, tags held out of use, links, caches. -/
structure Fabric where
  packets : List Packet
  nextId : Nat
  txs : List Tx
  rxs : List Rx
  /-- (router, endpoint, tag) timed out and held out of use (R252) -/
  heldTags : List (Nat × Nat × Nat)
  links : Tab Link
  /-- OCC as last advertised, keyed 32·block + destination block (R270) -/
  occ : Tab Nat
  /-- packets admitted from a router's die since the last tick, and in the round of R266 by 128·router + partition -/
  admitted : Tab Nat
  round : Tab Nat
  /-- spare planes being tuned, keyed 32·block + destination block (R269) -/
  tuning : Tab (List Nat)
  /-- wavelengths whose last-accepted report is due: (block, destination, plane) -/
  reports : List (Nat × Nat × Nat)
  combFailed : List Nat
  /-- a re-orientation drains the escape channel (R263) -/
  reorient : Bool
  cache : Tab (List CLine)
  fills : List CFill
  /-- cache lines of a die with a write of that die unacknowledged: (die, key, tag's router, endpoint, tag) -/
  wlines : List (Nat × Nat × Nat × Nat × Nat)
  combine : List Combine
  invs : List Inv
  /-- hits and misses of a partition in a die's cache (R229), keyed 128·die + partition -/
  cacheCnt : Tab (Nat × Nat)
  /-- link directions (4·router + port) that lead down under R262, and the level of each router in the order in force,
  none where it was out of service (R263) -/
  down : List Nat
  levels : Tab Nat
  /-- the plane after which a pair's stripe goes on (R268), keyed 32·block + destination block -/
  stripe : Tab Nat
  isolated : Bool
  deriving DecidableEq, Repr

/-- HBM besides its bytes: slices that were out of service when the interleave was built and that are out
now, owners of physical units (R219–R221), corrected counts. -/
structure Hbm where
  downAtBuild : List Nat
  downNow : List Nat
  owner : Tab Nat
  built : Bool
  corrected : Tab Nat
  selfRefresh : Bool
  refreshes : Tab Nat
  /-- rows replaced by post-package repair since power-up (R222), as 2^40·slice + row -/
  repaired : List Nat
  deriving DecidableEq, Repr

/-- An entry held for a completion ring (R287): a completion record of handle `h`, or a notice. -/
structure Held where
  part : Nat
  notice : Bool
  h : W32
  q : Quad
  deriving DecidableEq, Repr

/-- A command that firmware has read from a submission ring (R285): the ring and the packet, and, where the function has lost
its link or was reset since, the partition it was bound to then (127 none) and whether it was the administrator (R309). -/
structure Taken where
  ring : Nat
  pkt : CmdPkt
  late : Option (Nat × Bool)
  deriving DecidableEq, Repr

/-- A host function's rings besides its registers (R282–R289): doorbell indices, phases, records and notices
held, commands read but not answered, the ring served next, unsignalled records, the nonce issued. -/
structure Func where
  sqTail : Tab Nat
  rqHead : Nat
  cqHead : Nat
  logHead : Nat
  rqPhase : Bool
  cqPhase : Bool
  held : List Held
  inbox : List Taken
  cur : Nat
  unsignalled : Nat
  msix0 : Nat
  msix1 : Nat
  /-- the nonce issued to the function, with its time in ms (R446) -/
  nonce : Option (W64 × Nat)
  deriving DecidableEq, Repr

/-- A host port die (R427, R308, R309). -/
structure Port where
  pgood : Bool
  perst : Bool
  answers : Bool
  up : Bool
  everUp : Bool
  lost : Bool
  /-- functions whose turn comes next (R285) -/
  turn : Nat
  deriving DecidableEq, Repr

/-- States of a handle (R294) before its record is decided. -/
inductive HState where
  | waiting | running | complete
  deriving DecidableEq, Repr

/-- A live handle (R292–R295) and the command it stands for. -/
structure Handle where
  h : W32
  port : Nat
  func : Nat
  ring : Nat
  part : Nat
  /-- the partition the command works on: `part`, or the one its P0 names -/
  target : Nat
  opcode : Nat
  cid : BitVec 16
  pkt : CmdPkt
  strict : Bool
  /-- handles of the same ring that AFTER waits for (R289) -/
  after : List W32
  state : HState
  status : Nat
  /-- its status is decided and its record not yet queued (R303, R314) -/
  due : Bool
  /-- the planner has deferred it (R330, R333) -/
  deferred : Bool
  /-- the always-on count at acceptance, from which QUERY_HANDLE gives the age (R294) -/
  since : Nat
  est : Nat
  charged : Nat
  /-- energy charged beyond whole µJ, in 1e-4 µJ -/
  frac : Nat
  /-- totals by event kind 0–6 of R81, descriptors warned and promoted (R89) -/
  cnt : Tab Nat
  warned : Nat
  promoted : Nat
  epoch : Nat
  rolledBack : Bool
  locked : Bool
  /-- copy or fill: bytes moved so far (R303); its host transfer is held (R309) -/
  done : Nat
  hostHeld : Bool
  /-- RUN: addresses of CHECKPOINT images of it (R409), and the times in ms of its start and of its last commit -/
  images : List W64
  startMs : Nat
  commitMs : Nat
  deriving DecidableEq, Repr

/-- Why a partition is paused (R305, R316, R414). -/
inductive PauseCause where
  | host | orphan | thermal | storm | domain | stateLost
  deriving DecidableEq, Repr

/-- States of a partition (R316). -/
inductive PState where
  | free | creating | active | paused | destroying
  deriving DecidableEq, Repr

/-- A partition (R315–R333). -/
structure Partition where
  state : PState
  hport : Nat
  hfunc : Nat
  bound : Bool
  orphaned : Bool
  destroyAfter : Bool
  token : W64
  policy : Bool
  grace : Nat
  causes : List PauseCause
  /-- logical core → (die, slot); unmapped when absent (R404) -/
  cores : Tab (Nat × Nat)
  ncores : Nat
  /-- cores to remove by a shrink, with the handle of the PART_RESIZE -/
  resize : Option (Nat × W32)
  units : Tab Nat
  hbmQuota : Nat
  handleQuota : Nat
  weight : Nat
  budget : Nat
  budgetNext : Nat
  window : Nat
  windowNext : Nat
  left : Nat
  spent : Nat
  beff : Nat
  total : Nat
  duty : Nat
  lastTick : Nat
  /-- energy beyond whole µJ, in 1e-4 µJ, and the charges in µJ of the last 100 ticks, newest first (R375) -/
  frac : Nat
  ticks : List Nat
  overBits : Nat
  /-- the forecast in force: (offset in ms, W), and when it was accepted, in ms (R374) -/
  forecast : List (Nat × Nat)
  forecastAt : Nat
  /-- records and notices held while no function is bound (R287, R309) -/
  held : List Held
  /-- S, R, Beff and the total as they stood at the end of the last accounting tick (R333) -/
  figures : Quad
  /-- the spans of time lost, in ms, none overlapping another, and the active time in ms since the last report and in each
  of the 29 days before it, newest first (R423) -/
  lost : List (Nat × Nat)
  activeMs : Nat
  days : List Nat
  deriving DecidableEq, Repr

/-- A VPM channel (R348, R352–R354). -/
structure Channel where
  on : Bool
  mv : Nat
  ilim : Nat
  tripped : Bool
  retention : Bool
  /-- mV while in retention (R352) -/
  retMv : Nat
  regulated : Bool
  entry : W32
  deriving DecidableEq, Repr

/-- A command on a power command link that has no answer yet: type, channel, value, the die that sent it, resends (R353),
and the answer on its way: none when the VPM got nothing, 0 an ACK or a STATUS, else the reason of a NAK (R352). -/
structure PclCmd where
  seq : Nat
  type : Nat
  ch : Nat
  val : Nat
  die : Nat
  resends : Nat
  ans : Option Nat
  deriving DecidableEq, Repr

/-- A power command link (R350–R355): its master, the die that released it, the always-on count at the master's last
heartbeat or release, the sequence numbers of either direction, and what is outstanding. -/
structure Pcl where
  master : Option Nat
  released : Option Nat
  beat : Nat
  up : Bool
  seq : Nat
  vseq : Nat
  out : List PclCmd
  deriving DecidableEq, Repr

/-- The synchronised frequency change armed or being collected (R344): its identifier, its 40 targets, the dies it was
sent to, those armed, those the controller has heard from, and those that have had their COMMIT. -/
structure FreqChange where
  id : Nat
  targets : List Nat
  dies : List Nat
  armed : List Nat
  ready : List Nat
  refused : List Nat
  committed : List Nat
  /-- 1 armed, 2 committed, 3 abandoned -/
  state : Nat
  /-- where the change is to mend a missed one, the region and the code it goes back to when it refuses (R345) -/
  undo : Option (Nat × Nat)
  deriving DecidableEq, Repr

/-- References of a die (R336, R337), keyed by die: compute 0–383, Dome 384–391, base 400–495,
photonic 500–531; its armed code, and its answer to ARM. -/
structure RefState where
  aOk : Bool
  bOk : Bool
  useB : Bool
  holdover : Bool
  standby : Nat
  yes : Bool
  deriving DecidableEq, Repr

/-- Clocks and power delivery. -/
structure Power where
  vpmIn : Bool
  ch : Tab Channel
  pcl : Tab Pcl
  inputMv : Nat
  inputMa10 : Nat
  freq : Option FreqChange
  freqQueue : List (List Nat × Option (Nat × Nat))
  refs : Tab RefState
  /-- always-on cycles since power-up (R342) and, per core row keyed 2·die + row, arithmetic cycles (R128) -/
  aon : Nat
  /-- the always-on count at which a die powered up last, keyed by die as `refs` is (R342) -/
  aonAt : Tab Nat
  rowCycles : Tab Nat
  darkBlocks : List Nat
  /-- idle floor of each supply region in µJ per ms, measured at start-up (R326) -/
  floor : Tab Nat
  /-- what the power monitors have added up for each channel, in 1e-4 µJ (R326, R353) -/
  energy : Tab Nat
  deriving DecidableEq, Repr

/-- The two readings of one sensor pair (R362): the flag, and since when, in ms, they have differed by more than 5 °C or
agreed within 2 °C. -/
structure Pair where
  flag : Bool
  apart : Option Nat
  close : Option Nat
  deriving DecidableEq, Repr

/-- The sensors of a die or stack (R361–R367), temperatures in 1/16 °C: samples not yet averaged, the readings of R361
with those discarded, the two pairs, the temperature, whether and since when it is a model estimate, throttling and since
when the temperature has been low enough to end it, die hold, trip, the cycle counter of R377, and what the temperature
and the power in mW were 100 ms ago (R371). -/
structure Sensed where
  samples : List (List Int)
  reads : List Int
  discarded : List Bool
  pair0 : Pair
  pair1 : Pair
  value : Int
  model : Option Nat
  throttling : Bool
  cool : Option Nat
  hold : Bool
  trip : Bool
  dirUp : Bool
  lo : Int
  hi : Int
  was : Option (Int × Nat)
  deriving DecidableEq, Repr

/-- Thermal sensing and cooling (R360–R379). -/
structure Thermal where
  unit : Tab Sensed
  hold : Nat
  holdCauses : Nat
  /-- the energy of the last accounting tick in W, and in 1e-4 µJ (R326, R331) -/
  measuredW : Nat
  tickEnergy : Nat
  ceilCool : Nat
  ceilFormed : Bool
  /-- the pre-cool request that stands (R375, R461): flow in 0.01 L/min, INLET_REQ, LEAD_MS, power in W -/
  precool : Option (Nat × Nat × Nat × Nat)
  asked : Tab Nat
  deriving DecidableEq, Repr

/-- A frame checker's channel (R459) and what was last acted on (R460). -/
structure FacChan where
  up : Bool
  base : Bool
  last : BitVec 8
  run : Nat
  deriving DecidableEq, Repr

/-- The facility port (R455–R465). Values come with every accepted message. -/
structure Facility where
  ch : Tab FacChan
  /-- messages acted on, by 256·type + counter: (counter, channel, payload, ms); copies are matched against them (R460) -/
  acted : Tab (Nat × Nat × Nat × Nat)
  /-- the last payload accepted of each type before firmware ran (R459) -/
  early : Tab Nat
  rack : Nat
  grantSeq : Nat
  /-- the grant fields last accepted on each channel that differ from the last acted on, with their ms (R463) -/
  grantSeen : Tab (Nat × Nat)
  facCeil : Nat
  /-- a CEILING accepted, in force from the next tick (R462) -/
  ceilNext : Option Nat
  haveFlow : Bool
  haveTemp : Bool
  /-- FEED_MV, ON_BACKUP and REDUNDANCY_LOST of the last VPM_STATUS, as they lie in it (R461, R462; log entry 72) -/
  feed : Nat
  onBackup : Bool
  silent : Bool
  held : Bool
  safe : Bool
  estop : Nat
  txCount : BitVec 8
  /-- the last frame sent of each type: (counter, payload) (R461) -/
  sent : Tab (Nat × Nat)
  deriving DecidableEq, Repr

/-- A check-unit scan (R466, R470), keyed by unit: compute die d, or 384 + 2·m + u. -/
structure ChkScan where
  handle : W32
  part : Nat
  deriving DecidableEq, Repr

/-- One entry of an Almanac copy: its change number, its value, and whether it can be read (R395). -/
structure AlmEntry where
  stamp : Nat
  val : Nat
  ok : Bool
  deriving DecidableEq, Repr

/-- The Almanac's two copies (R395) and the scored events of each die (R396): (die key, weight, age in h). -/
structure Almanac where
  copy0 : Tab AlmEntry
  copy1 : Tab AlmEntry
  events : List (Nat × Nat × Nat)
  stamp : Nat
  deriving DecidableEq, Repr

/-- A contained error detected and not yet handled (R385–R388), with what its record needs (R382). -/
structure ErrItem where
  source : Nat
  domain : Nat
  part : Nat
  handle : W32
  site : Nat
  die : Nat
  block : Nat
  addr : W64
  detail : Quad
  merged : Bool
  /-- CTL_MS at detection, and bits [63:10] of record word 0x10 (R382) -/
  ms : Nat
  loc : Nat
  deriving DecidableEq, Repr

/-- The error being handled (R385): the item, the domain it has reached, the jobs being rolled back, the
phase of the recovery of R410 and the consequences counted (R411). -/
structure Handling where
  item : ErrItem
  domain : Nat
  escalated : Bool
  action : Nat
  jobs : List W32
  /-- 0 acting, 1 draining (step 4), 2 restoring (steps 5–7) -/
  phase : Nat
  consequences : Nat
  /-- errors that touched it, and those merged into it (R386, R387) -/
  mergedItems : List ErrItem
  /-- sites that have taken over logical cores (R413), and the action taken for each failed site (R382) -/
  newSites : List Nat
  acts : Tab Nat
  deriving DecidableEq, Repr

/-- An error record: its eight words (R382). -/
structure ErrRecord where
  a : Quad
  b : Quad
  deriving DecidableEq, Repr

/-- Faults, the error queue and the log (R380–R423). -/
structure Errors where
  queue : List ErrItem
  /-- errors beyond the queue's capacity in a storm (R389) -/
  overflow : List ErrItem
  handling : Option Handling
  storm : Bool
  /-- when the latest 16 contained errors arrived, in ms, newest first (R389) -/
  arrivals : List Nat
  log : List ErrRecord
  /-- corrected errors coalesced in the running second: (source, location, count) (R384) -/
  coalesced : List (Nat × Nat × Nat)
  /-- sites with an ARITH error, and (site, 2048·bank + physical row) with an SP_UE error, with the hours
  since (R383) -/
  arith : List (Nat × Nat)
  spUe : List (Nat × Nat × Nat)
  /-- score-based expulsions: (block, ms) (R398); dies held back by the limit, and dies that move at the next commits
  of their jobs (R400) -/
  expels : List (Nat × Nat)
  waiting : List Nat
  expelling : List Nat
  /-- the reserve that takes a die over (R28, R400, R403), until all of the die's cores have moved -/
  takers : Tab Nat
  /-- agents lost on nets A (1) and B (2), by die number (R391), and when a retest last failed, in ms (R405) -/
  agents : Tab Nat
  retestAt : Tab Nat
  /-- base dies in a full reset, and base dies that have had a router-preserving one (R417, R418) -/
  resetting : List Nat
  preserved : List Nat
  /-- blocks whose choice of a reserve waits for work to end (R27) -/
  reserveDue : List Nat
  deriving DecidableEq, Repr

/-- A core's mirrored state in its partner's mirror store (R119, R406–R408), one generation: in `State.mirror` the
last committed one stands at the site's number, the other at 8,192 + site. `regions` lists the live bytes in LIVE
order, `poison` the poisoned granules among them. -/
structure Mirror where
  epoch : Nat
  partner : Nat
  pc : Nat
  c : Tab W64
  k : Tab (BitVec 16)
  live : Tab W64
  regions : List (Nat × Byte)
  poison : List Nat
  trailerOk : Bool
  deriving DecidableEq, Repr

/-- What a boot ROM finds in a firmware image (R437): the header fields it needs, and how the checks of R438 that do not
depend on fuses come out. -/
structure FwImage where
  magicOk : Bool
  svn : Nat
  mlSlot : Nat
  edSlot : Nat
  peerMin : W32
  version : W32
  keysOk : Bool
  bodyOk : Bool
  edSigOk : Bool
  mlSigOk : Bool
  digest : BitVec 384
  deriving DecidableEq, Repr

/-- A firmware image slot (R439). -/
structure Slot where
  img : Option FwImage
  bad : Bool
  deriving DecidableEq, Repr

/-- A Llyndar controller and its management die (R429–R440). -/
structure Ctl where
  running : Bool
  /-- STAGE of BOOT_STATUS (R453) -/
  stage : Nat
  slotA : Slot
  slotB : Slot
  activeB : Bool
  pending : Option Bool
  runB : Bool
  fuses : Nat
  version : W32
  svn : Nat
  digest : BitVec 384
  restarting : Bool
  heard : Bool
  readyMs : Nat
  /-- this controller masters the net of the other (R393) -/
  sole : Bool
  recovery : Bool
  /-- the chunks of an image received in ROM recovery (R439) -/
  chunks : List Byte
  tested : Bool
  powered : Bool
  /-- the fuse count and the debug state that its Alias keys were derived from (R441) -/
  aliasFuses : Nat
  aliasDebug : Nat
  deriving DecidableEq, Repr

/-- The firmware update in progress (R451, R452). -/
structure Update where
  handle : W32
  img : Option FwImage
  commit : Bool
  revoke : Bool
  restart : Bool
  /-- 1 reading, 2 staged, 3 first controller restarting, 4 second, 5 done -/
  step : Nat
  deriving DecidableEq, Repr

/-- Start-up, trust and test access (R424–R454). -/
structure Boot where
  c0 : Ctl
  c1 : Ctl
  ready : Bool
  held390 : Bool
  resetPending : Bool
  update : Option Update
  revoked : List (Nat × Nat)
  /-- debug unlock: latched scope bits, in force scope bits, locked when 0 and `unlocked` false (R448) -/
  unlocked : Bool
  scope : Nat
  debugNonce : Option (W64 × Nat)
  debugRestart : Bool
  opKeys : Option (BitVec 384 × BitVec 384)
  chainMeridian : Bool
  tapMaster : Bool
  /-- units whose segment insertion bit is open (R432): compute die d, Dome die 384 + i, base die 400 + u, photonic engine
  500 + b, stack 600 + n -/
  segs : List Nat
  tdo : W32
  /-- what the tests of R434 found, to be written at the merge (R435) -/
  fails : List TestFail
  mergedOk : Bool
  trained : Bool
  deriving DecidableEq, Repr

/-- A Secure SPDM responder of a port (R443–R445): what has been negotiated, the requests so far, and the
response placed in the DOE mailbox. -/
structure Spdm where
  version : Bool
  caps : Bool
  algs : Bool
  transcript : List Nat
  response : List Nat
  deriving DecidableEq, Repr

/-- Panel-wide firmware state: the capability record's live fields that nothing else holds, the administrator,
the ceilings, handle generations and the LOG_RING owner. -/
structure Panel where
  recordGen : W32
  blockOnline : BitVec 32
  transitUp : Bool
  facilityUp : Bool
  hbmDegraded : Bool
  ceilingW : Nat
  adminCeil : Nat
  admin : Option (Nat × Nat)
  adminByFacility : Bool
  gens : Tab Nat
  logRing : Option (Nat × Nat)
  /-- overhead energy of the last 100 ticks in µJ, newest first (R331), and what the counters of R327 showed at
  the last tick: PM_ACTIVE by site, TRAFFIC by 128·base die + partition, energy by channel -/
  overhead : List Nat
  lastActive : Tab Nat
  lastTraffic : Tab Nat
  lastEnergy : Tab Nat
  /-- packets counted in TRAFFIC since the last tick by the handle of the command whose core sends or gets them (R327) -/
  cmdTraffic : Tab Nat
  /-- program histories: partition, image address, LC_COUNT, mean µJ, most recently used first (R329) -/
  history : List (Nat × W64 × Nat × Nat)
  deriving DecidableEq, Repr

/-- The part and its stepping (R1, R5, R487), fixed at manufacture. -/
structure Part where
  code : Nat
  stepping : Nat
  grade : Nat
  deriving DecidableEq, Repr

/-- The state of the panel. -/
structure State where
  part : Part
  regs : Tab W64
  /-- Staged writes waiting for their boundary (R10): (mask, value) by register -/
  shadow : Tab (W64 × W64)
  mem : List Host.Cell
  poison : List Nat
  weak : List Nat
  cores : Tab Core
  fab : Fabric
  hbm : Hbm
  ports : Tab Port
  funcs : Tab Func
  handles : List Handle
  parts : Tab Partition
  panel : Panel
  power : Power
  therm : Thermal
  fac : Facility
  chk : Tab ChkScan
  alm : Almanac
  err : Errors
  mirror : Tab Mirror
  boot : Boot
  spdm : Tab Spdm
  /-- the model's own counter of free values (log entry 3) -/
  free : Nat
  /-- commands waiting, first in, first out -/
  pending : List Instr
  deriving DecidableEq, Repr

def Mac.reset : Mac :=
  { q := [], runs := [], nextRun := 0, wbuf0 := none, wbuf1 := none, acc := [], accN := none, halo := [],
    finder := [], injRes := false, injFind := false, backlog := 0, pw := [], gen := 1#64, findGen := 1#64 }

def Vec.reset : Vec := { t := [], m := [], carry := [], chain := [], q := [], gen := 1#64 }

def Edge.reset : Edge := { q := [], ops := [], nextOp := 0, rows := [], keyset := none, mapCache := [], gen := 1#64 }

def Dma.reset : Dma := { q := [], ops := [], nextOp := 0 }

def Sp.reset : Sp := { maps := [], track := [], scrub := [], hold := none, mig := none, buf := 0#2048, bufPoison := [] }

/-- A core after core reset (R121, R122, R135, R193): IDLE, its file zero, SEQ the owner of every bank
(the OWNER fields of SP_BANK, reset 0). -/
def Core.reset : Core :=
  { c := [], k := [], seq := .idle, pc := 0, ibuf := [], stall := none, frozenFrom := .idle,
    launch := ⟨0#64, 0#64, 0#64, 0#64⟩, lcore := 0, part := 127, handle := 0#32, arrived := false,
    copied := false, mac := Mac.reset, vec := Vec.reset, edge := Edge.reset, dma := Dma.reset,
    sp := Sp.reset }

def Link.reset : Link := { up := false, reportDue := false, seq := 0, failed := [], spared := [], training := [] }

def Fabric.reset : Fabric :=
  { packets := [], nextId := 0, txs := [], rxs := [], heldTags := [], links := [], occ := [], admitted := [], round := [], tuning := [],
    reports := [], combFailed := [], reorient := false, cache := [], fills := [], wlines := [],
    combine := [], invs := [], cacheCnt := [], down := [], levels := [], stripe := [], isolated := true }

def Hbm.reset : Hbm :=
  { downAtBuild := [], downNow := [], owner := [], built := false, corrected := [], selfRefresh := false,
    refreshes := [], repaired := [] }

def Func.reset : Func :=
  { sqTail := [], rqHead := 0, cqHead := 0, logHead := 0, rqPhase := true, cqPhase := true, held := [],
    inbox := [], cur := 0, unsignalled := 0, msix0 := 0, msix1 := 0, nonce := none }

def Port.reset : Port :=
  { pgood := false, perst := true, answers := false, up := false, everUp := false, lost := false, turn := 0 }

def Partition.reset : Partition :=
  { state := .free, hport := 0, hfunc := 0, bound := false, orphaned := false, destroyAfter := false,
    token := 0#64, policy := false, grace := 60000, causes := [], cores := [], ncores := 0, resize := none,
    units := [], hbmQuota := 0, handleQuota := 0, weight := 0, budget := 0, budgetNext := 0, window := 0,
    windowNext := 0, left := 0, spent := 0, beff := 0, total := 0, duty := 255, lastTick := 0, frac := 0, ticks := [], overBits := 0,
    forecast := [], forecastAt := 0, held := [], figures := ⟨0, 0, 0, 0⟩, lost := [], activeMs := 0, days := [] }

def Pcl.reset : Pcl :=
  { master := none, released := none, beat := 0, up := false, seq := 0, vseq := 0, out := [] }

def Channel.reset : Channel :=
  { on := false, mv := 0, ilim := 0, tripped := false, retention := false, retMv := 0,
    regulated := false, entry := 0#32 }

def RefState.reset : RefState :=
  { aOk := false, bOk := false, useB := false, holdover := false, standby := 0,
    yes := false }

def Power.reset : Power :=
  { vpmIn := false, ch := [], pcl := [], inputMv := 0, inputMa10 := 0, freq := none, freqQueue := [],
    refs := [], aon := 0, aonAt := [], rowCycles := [], darkBlocks := [], floor := [], energy := [] }

def Pair.reset : Pair := { flag := false, apart := none, close := none }

/-- `lo` starts above every reading, so that the first count takes the temperature itself. -/
def Sensed.reset : Sensed :=
  { samples := [], reads := [], discarded := [], pair0 := Pair.reset, pair1 := Pair.reset, value := 0,
    model := none, throttling := false, cool := none, hold := false, trip := false, dirUp := false,
    lo := 16000, hi := 0, was := none }

def Thermal.reset : Thermal :=
  { unit := [], hold := 0, holdCauses := 0, measuredW := 0, tickEnergy := 0, ceilCool := 4800, ceilFormed := false,
    precool := none, asked := [] }

def FacChan.reset : FacChan := { up := false, base := true, last := 0#8, run := 0 }

def Facility.reset : Facility :=
  { ch := [], acted := [], early := [], rack := 0, grantSeq := 0, grantSeen := [], facCeil := 4800, ceilNext := none, haveFlow := false,
    haveTemp := false, feed := 0, onBackup := false, silent := true, held := false, safe := true, estop := 0,
    txCount := 0#8, sent := [] }

def Almanac.reset : Almanac := { copy0 := [], copy1 := [], events := [], stamp := 0 }

def Errors.reset : Errors :=
  { queue := [], overflow := [], handling := none, storm := false, arrivals := [], agents := [], retestAt := [], log := [],
    coalesced := [], arith := [], spUe := [], expels := [], waiting := [], expelling := [], takers := [],
    resetting := [], preserved := [], reserveDue := [] }

def Ctl.reset : Ctl :=
  { running := false, stage := 0, slotA := ⟨none, false⟩, slotB := ⟨none, false⟩, activeB := false,
    pending := none, runB := false, fuses := 0, version := 0#32, svn := 0, digest := 0#384,
    restarting := false, heard := false, readyMs := 0, sole := false, recovery := false, chunks := [], tested := false,
    powered := false, aliasFuses := 0, aliasDebug := 0 }

def Boot.reset : Boot :=
  { c0 := Ctl.reset, c1 := Ctl.reset, ready := false, held390 := false, resetPending := false,
    update := none, revoked := [], unlocked := false, scope := 0, debugNonce := none,
    debugRestart := false, opKeys := none, chainMeridian := false, tapMaster := false, segs := [], tdo := 0#32,
    fails := [], mergedOk := false, trained := false }

def Spdm.reset : Spdm :=
  { version := false, caps := false, algs := false, transcript := [], response := [] }

def Panel.reset : Panel :=
  { recordGen := 0#32, blockOnline := 0#32, transitUp := false, facilityUp := false, hbmDegraded := false,
    ceilingW := 4800, adminCeil := 0, admin := none, adminByFacility := false,
    gens := [], logRing := none, overhead := [], lastActive := [], lastTraffic := [], lastEnergy := [],
    cmdTraffic := [], history := [] }

/-- The panel right after reset: every register at its reset value (an absent entry of `regs` reads as the
manual's reset value), every core IDLE, nothing in the fabric, no partition and no handle. The part is a
VZ1-F of stepping 2 whose Almanac lists nothing, and no power has been applied yet (log entries 1 and 2). -/
def State.reset : State :=
  { part := { code := 1, stepping := 2, grade := 4928 }, regs := [], shadow := [], mem := [], poison := [],
    weak := [], cores := [], fab := Fabric.reset, hbm := Hbm.reset, ports := [], funcs := [], handles := [],
    parts := [], panel := Panel.reset, power := Power.reset, therm := Thermal.reset, fac := Facility.reset,
    chk := [], alm := Almanac.reset, err := Errors.reset, mirror := [], boot := Boot.reset, spdm := [],
    free := 0, pending := [] }

end Sys2Proof.Machine
end

