-- ==== Sys2Proof/Machine/Access.lean ====
section
/-! DEFINITION. Where every register lies and how its fields are read and written. A register has one home,
`State.regs`, under the number `page + offset`; `page` is the register-space address of the unit's page
(R128, R215), the address of a cache control page (R213, R229), or, for BAR0 of a host function (R282), a
number above the whole panel address space. -/

namespace Sys2Proof.Machine

/-- The page of core site g (R128). -/
def corePage (g : Nat) : Nat := 0x4000000000000000 + g * 0x1000

/-- A page of one of the other areas of register space (R215). -/
def areaPage (area unit : Nat) : Nat := 0x4000000000000000 + area * 2 ^ 56 + unit * 2 ^ 47

def spinePage (d : Nat) : Nat := areaPage 1 d
def basePage (u : Nat) : Nat := areaPage 2 u
def slicePage (n : Nat) : Nat := areaPage 3 n
def photPage (b : Nat) : Nat := areaPage 4 b
def domePage (i : Nat) : Nat := areaPage 8 i

/-- The cache control page of die d (R213, R229). -/
def cachePage (d : Nat) : Nat := 0x5000000000000000 + d * 2 ^ 51

/-- BAR0 of function f of host port p (R282). -/
def barPage (p f : Nat) : Nat := 2 ^ 65 + p * 2 ^ 32 + f * 2 ^ 20

/-- The page of a register address, and the offset in it. -/
def RegAddr.page : RegAddr → Nat
  | .core g _ => corePage g
  | .spine d _ => spinePage d
  | .base u _ => basePage u
  | .slicectl n _ => slicePage n
  | .photonic b _ => photPage b
  | .dome i _ => domePage i
  | .cache d _ => cachePage d
  | .bar p f _ => barPage p f

def RegAddr.off : RegAddr → Nat
  | .core _ o | .spine _ o | .base _ o | .slicectl _ o | .photonic _ o | .dome _ o | .cache _ o
  | .bar _ _ o => o

/-- Bits [hi:lo] of a word. -/
def bits (w : W64) (hi lo : Nat) : Nat := w.toNat / 2 ^ lo % 2 ^ (hi + 1 - lo)

/-- Bit i of a word. -/
def bit (w : W64) (i : Nat) : Bool := w.toNat / 2 ^ i % 2 == 1

/-- `w` with bits [hi:lo] replaced by the low bits of v. -/
def setBits (w : W64) (hi lo v : Nat) : W64 :=
  BitVec.ofNat 64 (w.toNat - bits w hi lo * 2 ^ lo + v % 2 ^ (hi + 1 - lo) * 2 ^ lo)

/-- A register's word in effect. -/
def State.reg (s : State) (k rst : Nat) : W64 := s.regs.getD k (BitVec.ofNat 64 rst)

/-- The state with a register's word replaced. -/
def State.setReg (s : State) (k : Nat) (w : W64) : State := { s with regs := s.regs.set k w }

/-- A field of a register of a page. -/
def State.fld (s : State) (page : Nat) (F : Fld) : Nat := bits (s.reg (page + F.off) F.rst) F.hi F.lo

/-- The state with a field of a register of a page replaced. -/
def State.setFld (s : State) (page : Nat) (F : Fld) (v : Nat) : State :=
  s.setReg (page + F.off) (setBits (s.reg (page + F.off) F.rst) F.hi F.lo v)

/-- The largest value of a field. -/
def Fld.max (F : Fld) : Nat := 2 ^ (F.hi + 1 - F.lo) - 1

/-- Add n to a field that saturates. -/
def State.addSat (s : State) (page : Nat) (F : Fld) (n : Nat) : State :=
  s.setFld page F (min (s.fld page F + n) F.max)

/-- Add n to a field that wraps. -/
def State.addWrap (s : State) (page : Nat) (F : Fld) (n : Nat) : State :=
  s.setFld page F ((s.fld page F + n) % 2 ^ (F.hi + 1 - F.lo))

/-- A field that is a single bit, as a Bool. -/
def State.flag (s : State) (page : Nat) (F : Fld) : Bool := s.fld page F == 1

/-- A core site. -/
def State.core (s : State) (g : Nat) : Core := s.cores.getD g Core.reset

def State.setCore (s : State) (g : Nat) (c : Core) : State := { s with cores := s.cores.set g c }

def State.updCore (s : State) (g : Nat) (f : Core → Core) : State := s.setCore g (f (s.core g))

def State.port (s : State) (p : Nat) : Port := s.ports.getD p Port.reset
def State.setPort (s : State) (p : Nat) (x : Port) : State := { s with ports := s.ports.set p x }

/-- Functions are keyed by 64·port + function. -/
def fkey (p f : Nat) : Nat := 64 * p + f
def State.func (s : State) (p f : Nat) : Func := s.funcs.getD (fkey p f) Func.reset
def State.setFunc (s : State) (p f : Nat) (x : Func) : State := { s with funcs := s.funcs.set (fkey p f) x }

def State.prt (s : State) (q : Nat) : Partition := s.parts.getD q Partition.reset
def State.setPrt (s : State) (q : Nat) (x : Partition) : State := { s with parts := s.parts.set q x }
def State.updPrt (s : State) (q : Nat) (f : Partition → Partition) : State := s.setPrt q (f (s.prt q))

/-- Milliseconds of the always-on clock of 25 MHz (R342). -/
def State.ms (s : State) : Nat := s.power.aon / 25000

/-- Coordinates of a compute die or router d (R18). -/
def dieX (d : Nat) : Nat := d % 24
def dieY (d : Nat) : Nat := d / 24
def dieAt (x y : Nat) : Nat := 24 * y + x
def blockOf (d : Nat) : Nat := 8 * (dieY d / 4) + dieX d / 3
/-- The base die under compute die d (R17, R19). -/
def baseOf (d : Nat) : Nat := 3 * blockOf d + dieX d % 3
/-- The compute die above row cy of base die u. -/
def dieOfBase (u cy : Nat) : Nat := dieAt (3 * (u / 3 % 8) + u % 3) (4 * (u / 24) + cy)
/-- East half of the panel (R16). -/
def eastDie (d : Nat) : Bool := 12 ≤ dieX d
def eastBlock (b : Nat) : Bool := 4 ≤ b % 8
/-- Die and site within the die of a global core site number (R23). -/
def dieOfSite (g : Nat) : Nat := g / 16
/-- Mesh distance between two dies. -/
def meshDist (a b : Nat) : Nat :=
  (if dieX a ≤ dieX b then dieX b - dieX a else dieX a - dieX b)
    + (if dieY a ≤ dieY b then dieY b - dieY a else dieY a - dieY b)
/-- Dies of block b, in ascending number. -/
def blockDies (b : Nat) : List Nat :=
  (List.range 4).flatMap (fun cy => (List.range 3).map (fun cx => dieAt (3 * (b % 8) + cx) (4 * (b / 8) + cy)))
/-- The page of the router of die d: row cy of its base die (R275). -/
def routerPage (d : Nat) : Nat := basePage (baseOf d) + 0x20000 * (dieY d % 4)

/-- Units the part carries (R1, R2). -/
def Part.hasEast (p : Part) : Bool := p.code == 1 || p.code == 2
def Part.hasTransit (p : Part) : Bool := p.code != 4
def Part.hasStack (p : Part) (n : Nat) : Bool := n < 64 && (p.hasEast || n % 2 == 0)
def Part.hasPort (p : Part) (h : Nat) : Bool := h < 4 && (p.code != 4 || h < 2)
def Part.hasDome (p : Part) (i : Nat) : Bool := i < 8 && (p.code != 4 || (i != 2 && i != 3))

/-- Hand-written register fields: the tables of R216, R275, R325, R358, R419 and R420 whose registers hold
one entry in each group of bits. -/
def WIN_UNIT (w u : Nat) : Nat := 0x10000 + 0x8000 * w + 0x400 + 8 * (u / 4)
def WIN_UNIT_VALID (w u : Nat) : Fld := ⟨WIN_UNIT w u, 16 * (u % 4) + 15, 16 * (u % 4) + 15, 0⟩
def WIN_UNIT_PUNIT (w u : Nat) : Fld := ⟨WIN_UNIT w u, 16 * (u % 4) + 11, 16 * (u % 4), 0⟩
def WIN_CORE (w l : Nat) : Nat := 0x10000 + 0x8000 * w + 0x2000 + 8 * (l / 4)
def WIN_CORE_VALID (w l : Nat) : Fld := ⟨WIN_CORE w l, 16 * (l % 4) + 15, 16 * (l % 4) + 15, 0⟩
def WIN_CORE_DIE (w l : Nat) : Fld := ⟨WIN_CORE w l, 16 * (l % 4) + 12, 16 * (l % 4) + 4, 0⟩
def WIN_CORE_SLOT (w l : Nat) : Fld := ⟨WIN_CORE w l, 16 * (l % 4) + 3, 16 * (l % 4), 0⟩
def SLOT_MAP (j : Nat) : Nat := 0xF008 + 8 * (j / 8)
def SLOT_MAP_VALID (j : Nat) : Fld := ⟨SLOT_MAP j, 8 * (j % 8) + 7, 8 * (j % 8) + 7, 0⟩
def SLOT_MAP_SITE (j : Nat) : Fld := ⟨SLOT_MAP j, 8 * (j % 8) + 3, 8 * (j % 8), 0⟩
def INJ_SHARE (q : Nat) : Fld := ⟨0x100 + 8 * (q / 8), 8 * (q % 8) + 7, 8 * (q % 8), 0x1010101010101010⟩
/-- A route table word holds four entries, each ESC_UP 7, ESC_DOWN 7 and DEAD 1 after reset. -/
def RT_ENTRY_RST : Nat := 0x07F007F007F007F0
def RT_ENTRY (k r : Nat) : Nat := 0x1000 + 0x400 * k + 8 * (r / 4)
def RT_ADAPT (k r : Nat) : Fld := ⟨RT_ENTRY k r, 16 * (r % 4) + 15, 16 * (r % 4) + 12, RT_ENTRY_RST⟩
def RT_TRANSIT (k r : Nat) : Fld := ⟨RT_ENTRY k r, 16 * (r % 4) + 11, 16 * (r % 4) + 11, RT_ENTRY_RST⟩
def RT_ESC_UP (k r : Nat) : Fld := ⟨RT_ENTRY k r, 16 * (r % 4) + 10, 16 * (r % 4) + 8, RT_ENTRY_RST⟩
def RT_ESC_DOWN (k r : Nat) : Fld := ⟨RT_ENTRY k r, 16 * (r % 4) + 7, 16 * (r % 4) + 5, RT_ENTRY_RST⟩
def RT_DEAD (k r : Nat) : Fld := ⟨RT_ENTRY k r, 16 * (r % 4) + 4, 16 * (r % 4) + 4, RT_ENTRY_RST⟩
def FREQ_REGION (r : Nat) : Fld := ⟨0x4008 + 8 * (r / 8), 8 * (r % 8) + 7, 8 * (r % 8), 0x2020202020202020⟩
/-- A packed state and score word: i counts the dies of the register group at `b`. -/
def scoreState (b i : Nat) : Fld := ⟨b + 8 * (i / 4), 16 * (i % 4) + 15, 16 * (i % 4) + 12, 0⟩
def scoreVal (b i : Nat) : Fld := ⟨b + 8 * (i / 4), 16 * (i % 4) + 9, 16 * (i % 4), 0⟩

end Sys2Proof.Machine
end

