-- ==== Sys2Proof/Machine/Ops.lean ====
section
/-! DEFINITION. The one byte memory of the panel and its operations. Scratchpads, HBM slices and host
memory lie in one canonical list of bytes: an address that is not listed reads as zero (log entry 4), and no
listed byte is zero. Beside the bytes stand the poisoned granules and sectors (R191, R222) and those that hold
a correctable error (R190, R192, R222). -/

namespace Sys2Proof.Machine

/-- A command ends in one of the three outcomes. -/
abbrev Out := Host.Outcome State Fault Refusal

/-- A flag as a bit. -/
def b2n (b : Bool) : Nat := if b then 1 else 0

/-- Read one byte. -/
def memGet (m : List Host.Cell) (a : Nat) : Byte := (Tab.find m a).getD 0#8

/-- Write one byte, keeping the canonical form: a zero is not listed. -/
def memSet (m : List Host.Cell) (a : Nat) (b : Byte) : List Host.Cell :=
  if b = 0#8 then Tab.erase m a else Tab.set m a b

/-- The canonical form: addresses rise strictly and no listed byte is zero. -/
def Memory.wf (m : List Host.Cell) : Bool := Tab.sorted m && m.all (fun c => c.2 != 0#8)

/-- Read n bytes, little-endian. -/
def memRead (m : List Host.Cell) (a n : Nat) : Nat :=
  match n with
  | 0 => 0
  | k + 1 => (memGet m a).toNat + 256 * memRead m (a + 1) k

/-- Write the low n bytes of v, little-endian. -/
def memWrite (m : List Host.Cell) (a n v : Nat) : List Host.Cell :=
  match n with
  | 0 => m
  | k + 1 => memWrite (memSet m a (BitVec.ofNat 8 v)) (a + 1) k (v / 256)

/-- Write a list of bytes. -/
def memWriteBytes (m : List Host.Cell) (a : Nat) (l : List Byte) : List Host.Cell :=
  match l with
  | [] => m
  | b :: r => memWriteBytes (memSet m a b) (a + 1) r

/-- Read n bytes as a list. -/
def memReadBytes (m : List Host.Cell) (a n : Nat) : List Byte :=
  (List.range n).map (fun i => memGet m (a + i))

/-- Make the bytes from lo up to hi (not included) zero. -/
def memZero (m : List Host.Cell) (lo hi : Nat) : List Host.Cell := Tab.eraseRange m lo hi

/-- A set of numbers kept as a rising list. -/
def setIns (l : List Nat) (x : Nat) : List Nat :=
  match l with
  | [] => [x]
  | y :: r => if x < y then x :: y :: r else if x = y then y :: r else y :: setIns r x

def setDel (l : List Nat) (x : Nat) : List Nat := l.filter (fun y => y != x)

def setDelRange (l : List Nat) (lo hi : Nat) : List Nat := l.filter (fun y => y < lo || hi ≤ y)

/-- Where the scratchpad of site g, slice k and host memory behind port p lie in the one memory. -/
def spBase (g : Nat) : Nat := g * 2 ^ 23
def hbmBase (k : Nat) : Nat := 2 ^ 40 + k * 2 ^ 30
def hostBase (p : Nat) : Nat := 2 ^ 60 + p * 2 ^ 57

/-- Where physical row p of a bank of site g keeps its 256 bytes while no logical row occupies it (R189, R206). -/
def shelf (g bank p : Nat) : Nat := 2 ^ 36 + g * 2 ^ 23 + (1088 * bank + p) * 256

/-- Bytes of a scratchpad (R189). -/
def spSize : Nat := 6291456

/-- Instructions of a scratchpad (R94). -/
def pcLimit : Nat := 786432

/-- Bytes of a slice (R219). -/
def sliceSize : Nat := 805306368

/-- The protected granules, of size z, that [a, a+n) touches. -/
def granules (a n z : Nat) : List Nat :=
  if n = 0 then [] else
    (List.range ((a + n - 1) / z + 1 - a / z)).map (fun i => (a / z + i) * z)

/-- The protected granules that [a, a+n) covers completely. -/
def granulesWhole (a n z : Nat) : List Nat :=
  (granules a n z).filter (fun q => a ≤ q && q + z ≤ a + n)

/-- First poisoned granule that a read of [a, a+n) meets. -/
def State.poisonAt (s : State) (a n z : Nat) : Option Nat :=
  (granules a n z).find? (fun q => s.poison.contains q)

/-- Granules with a correctable error that a read of [a, a+n) meets. -/
def State.weakAt (s : State) (a n z : Nat) : List Nat := (granules a n z).filter (fun q => s.weak.contains q)

/-- Combining entries with a line among bytes [lo, hi) close when those are written (R231). -/
def State.closeLines (s : State) (lo hi : Nat) : State :=
  let at0 := fun (e : Combine) => (if e.unit < 10000 then hbmBase e.unit else spBase (e.unit - 10000)) + 128 * e.line
  { s with fab := { s.fab with combine := s.fab.combine.filter (fun e => hi ≤ lo || hi ≤ at0 e || at0 e + 128 ≤ lo) } }

/-- Protection after a write of [a, a+n): a granule written whole is sound, a partial write leaves poison in
place and re-encodes a correctable granule (R190, R191, R222). -/
def State.protWrite (s : State) (a n z : Nat) : State :=
  { s with
    poison := s.poison.filter (fun q => !(granulesWhole a n z).contains q)
    weak := s.weak.filter (fun q => !(granules a n z).contains q) }

/-- Write the low n bytes of v at a, in granules of z. -/
def State.store (s : State) (a n v z : Nat) : State :=
  { (s.protWrite a n z).closeLines a (a + n) with mem := memWrite s.mem a n v }

/-- Poison the granules that [a, a+n) touches (R191, R222). -/
def State.poisonRange (s : State) (a n z : Nat) : State :=
  { s with poison := (granules a n z).foldl setIns s.poison }

/-- Write bytes that carry poison or not, as a copy does (R191). -/
def State.storeP (s : State) (a n v z : Nat) (p : Bool) : State :=
  if p then (s.store a n v z).poisonRange a n z else s.store a n v z

/-- Zero [lo, hi) and clear its poison (R209). -/
def State.zeroRange (s : State) (lo hi : Nat) : State :=
  { s.closeLines lo hi with mem := memZero s.mem lo hi, poison := setDelRange s.poison lo hi, weak := setDelRange s.weak lo hi }

/-- Copy n bytes from a to b with their poisoned and correctable granules, wherever n is a multiple of the granule. -/
def State.copyCells (s : State) (a b n : Nat) : State :=
  let here := fun (l : List Nat) => (l.filter (fun q => a ≤ q && q < a + n)).map (fun q => q - a + b)
  { s.closeLines b (b + n) with
    mem := memWrite s.mem b n (memRead s.mem a n)
    poison := (here s.poison).foldl setIns (setDelRange s.poison b (b + n))
    weak := (here s.weak).foldl setIns (setDelRange s.weak b (b + n)) }

/-- Move n bytes from a to b with their protection; zeros are left behind. -/
def State.moveCells (s : State) (a b n : Nat) : State := (s.copyCells a b n).zeroRange a (a + n)

/-- Host memory has no protection of the panel's. -/
def State.hostRead (s : State) (p a n : Nat) : Nat := memRead s.mem (hostBase p + a % 2 ^ 57) n
def State.hostWrite (s : State) (p a n v : Nat) : State :=
  { s with mem := memWrite s.mem (hostBase p + a % 2 ^ 57) n v }

/-- Set element i of a list. -/
def listSet {α : Type} (l : List α) (i : Nat) (x : α) : List α := l.set i x

/-- Repeat a state change for 0, …, n − 1. -/
def iter {σ : Type} (n : Nat) (f : Nat → σ → σ) (s : σ) : σ :=
  match n with
  | 0 => s
  | k + 1 => f k (iter k f s)

/-- CRC-32C of a list of bytes (reflected polynomial 0x82F6_3B78), as the record, packets and images use. -/
def crcStep (poly : BitVec 32) (c : BitVec 32) (n : Nat) : BitVec 32 :=
  match n with
  | 0 => c
  | k + 1 => crcStep poly (if c.getLsbD 0 then (c >>> 1) ^^^ poly else c >>> 1) k

def crc32With (poly : BitVec 32) (c : BitVec 32) (l : List Byte) : BitVec 32 :=
  l.foldl (fun c b => crcStep poly (c ^^^ b.setWidth 32) 8) c

def crc32c (l : List Byte) : BitVec 32 := ~~~ (crc32With 0x82F63B78#32 0xFFFFFFFF#32 l)

/-- The n bytes of a number, little-endian. -/
def toBytes (v n : Nat) : List Byte :=
  match n with
  | 0 => []
  | k + 1 => BitVec.ofNat 8 v :: toBytes (v / 256) k

/-- The number that bytes spell, little-endian. -/
def ofBytes (l : List Byte) : Nat := l.foldr (fun b a => b.toNat + 256 * a) 0

/-- A signed number of n bits. -/
def sgn (v n : Nat) : Int := if v % 2 ^ n < 2 ^ (n - 1) then (v % 2 ^ n : Nat) else (v % 2 ^ n : Nat) - (2 ^ n : Nat)

/-- Sign extension of an immediate to 64 bits (R97, R98). -/
def sext (imm : W32) : W64 := imm.signExtend 64

end Sys2Proof.Machine
end

