-- ==== Sys2Proof/Machine/Almanac.lean ====
section
/-! DEFINITION. The Almanac (R395): two copies of keyed entries, each with a change number; the states of
sites and dies it records (R30, R31, R420), the health scores (R396) and the counts made from them. -/

namespace Sys2Proof.Machine

/-- Keys of Almanac entries: a class and an index. -/
def almKey (cls i : Nat) : Nat := cls * 2 ^ 24 + i

/-- The entry of key k: of the two copies the one with the higher change number, among those readable. -/
def State.almFind (s : State) (k : Nat) : Option AlmEntry :=
  match s.alm.copy0.find k, s.alm.copy1.find k with
  | none, none => none
  | some a, none => if a.ok then some a else none
  | none, some b => if b.ok then some b else none
  | some a, some b =>
    if a.ok then (if b.ok && a.stamp < b.stamp then some b else some a)
    else if b.ok then some b else none

/-- The value of key k, or what the factory left there. -/
def State.almVal (s : State) (k dflt : Nat) : Nat :=
  match s.almFind k with
  | some e => e.val
  | none => dflt

/-- Both copies of the entry are unreadable (R395). -/
def State.almBad (s : State) (k : Nat) : Bool :=
  match s.alm.copy0.find k, s.alm.copy1.find k with
  | some a, some b => !a.ok && !b.ok
  | some a, none => !a.ok
  | none, some b => !b.ok
  | none, none => false

/-- Write an entry to both copies under the next change number (R395). -/
def State.setAlm (s : State) (k v : Nat) : State :=
  let n := s.alm.stamp + 1
  { s with alm := { s.alm with
      copy0 := s.alm.copy0.set k ⟨n, v, true⟩
      copy1 := s.alm.copy1.set k ⟨n, v, true⟩
      stamp := n } }

/-- The classes of entries. -/
def almSite : Nat := 0      -- site state by global site (R30)
def almDie : Nat := 1       -- die state by compute die (R31)
def almBase : Nat := 2      -- base-die state (R420)
def almPhot : Nat := 3      -- photonic-engine state (R420)
def almCycles : Nat := 4    -- thermal-cycle count by scored die (R377)
def almLane : Nat := 6      -- failed lane (R257): 8192·router + 2048·port + lane
def almWave : Nat := 7      -- failed wavelength (R269): 512·block + 16·destination + plane
def almMap : Nat := 8       -- map entry (R207): 2048·site + 64·bank + entry; 1024·state + row
def almRetest : Nat := 9    -- failed retests (R405)
def almSensor : Nat := 10   -- failed sensors (R363)
def almPartner : Nat := 11  -- partner of a die (R406)
def almFirst : Nat := 12    -- Finder mismatches of a die (R74)
def almBefore : Nat := 13   -- state of a die before its block went dark (R357)
def almHbm : Nat := 14      -- HBM row to be repaired at start-up (R222): 2^40·slice + row; the last class

/-- States of R30. -/
def siteCounted : Nat := 0
def siteSpare : Nat := 1
def siteFailedFactory : Nat := 2
def siteFailedField : Nat := 3
def siteRetest : Nat := 4

/-- States of R31. -/
def dieCounted : Nat := 0
def dieReserve : Nat := 1
def dieProbation : Nat := 2
def dieRetired : Nat := 3
def dieRetest : Nat := 4
def dieDark : Nat := 5

/-- A row's spare position when the Almanac lists nothing: its highest site (log entry 1). -/
def State.siteState (s : State) (g : Nat) : Nat :=
  s.almVal (almKey almSite g) (if g % 8 == 7 then siteSpare else siteCounted)

/-- The die that a block is shipped with in reserve (R28): by the tests of R26 on sound dies, its lowest. -/
def shippedReserve (d : Nat) : Bool := d % 24 % 3 == 0 && d / 24 % 4 == 0

def State.dieState (s : State) (d : Nat) : Nat :=
  s.almVal (almKey almDie d) (if shippedReserve d then dieReserve else dieCounted)
def State.baseState (s : State) (u : Nat) : Nat := s.almVal (almKey almBase u) 0
def State.photState (s : State) (b : Nat) : Nat :=
  if s.part.hasTransit then s.almVal (almKey almPhot b) 0 else 2

def State.setSite (s : State) (g v : Nat) : State := s.setAlm (almKey almSite g) v

/-- Block b is powered and mapped (R5). -/
def State.blockOn (s : State) (b : Nat) : Bool := s.panel.blockOnline.getLsbD b

/-- The die counts its sites: COUNTED or PROBATION (R31). -/
def State.dieCounts (s : State) (d : Nat) : Bool :=
  s.dieState d == dieCounted || s.dieState d == dieProbation

/-- Counted sites of a die, in ascending site number. -/
def State.countedSites (s : State) (d : Nat) : List Nat :=
  (List.range 16).filter (fun i => s.siteState (16 * d + i) == siteCounted)

/-- Counted cores of a block if die r is held in reserve (R26); of the block as it is for r ≥ 384. -/
def State.blockCount (s : State) (b r : Nat) : Nat :=
  ((blockDies b).map (fun d =>
    if d == r then 0
    else if s.dieCounts d || (r < 384 && s.dieState d == dieReserve) then (s.countedSites d).length else 0)).sum

/-- COUNTED_CORES: the counted sites of the counted dies of the blocks in service (R29). -/
def State.countedCores (s : State) : Nat :=
  ((List.range 32).map (fun b => if s.blockOn b then s.blockCount b 384 else 0)).sum

/-- Scored dies: compute dies 0–383, base dies 384 + u, photonic engines 480 + b. -/
def keyBase (u : Nat) : Nat := 384 + u
def keyPhot (b : Nat) : Nat := 480 + b

/-- 2^(−h ÷ 168) in units of 2^−40: whole weeks halve, and each further hour multiplies by 2^(−1/168). -/
def decay168 (h : Nat) : Nat :=
  iter (h % 168) (fun _ x => x * 1094984524612 / 2 ^ 40) (2 ^ 40) / 2 ^ (h / 168)

/-- P of R396, rounded to an integer. -/
def State.penalty (s : State) (k : Nat) : Nat :=
  (((s.alm.events.filter (fun e => e.1 == k)).map (fun e => e.2.1 * decay168 e.2.2)).sum + 2 ^ 39) / 2 ^ 40

/-- The health score of R396; an engine that the part omits has score 0 (R420). -/
def State.score (s : State) (k : Nat) : Nat :=
  if 480 ≤ k && !s.part.hasTransit then 0
  else 1000 - s.penalty k - s.almVal (almKey almCycles k) 0 / 1000

/-- Weight of a source (R396). -/
def scoreWeight (source : Nat) : Nat :=
  match source with
  | 0x10 => 1
  | 0x12 => 5
  | 0x19 => 10
  | 0x15 => 20
  | 0x16 => 20
  | 0x13 => 50
  | 0x02 => 100
  | 0x03 => 100
  | 0x14 => 100
  | 0x04 => 250
  | _ => 0

/-- Record a scored event against die key k. -/
def State.addScore (s : State) (k weight : Nat) : State :=
  if weight == 0 then s else { s with alm := { s.alm with events := s.alm.events ++ [(k, weight, 0)] } }

end Sys2Proof.Machine
end

