-- ==== Sys2Proof/Machine/Rails.lean ====
section
/-! DEFINITION. The channels of the power module and what they feed (R348–R350), what a die knows of its
references (R336), and the clocks of core rows: their run bits,
the end of the dew state and what restarts them (R340, R376). -/

namespace Sys2Proof.Machine

/-! Channels, R348–R350. -/

def State.chan (s : State) (c : Nat) : Channel := s.power.ch.getD c Channel.reset
def State.setChan (s : State) (c : Nat) (x : Channel) : State := { s with power := { s.power with ch := s.power.ch.set c x } }

/-- Channels of die d (R349): its rows North and South, and its spine. -/
def rowCh (d h : Nat) : Nat := 50 * blockOf d + 2 * (3 * (dieY d % 4) + dieX d % 3) + h
def spineCh (d : Nat) : Nat := 50 * blockOf d + 24 + (3 * (dieY d % 4) + dieX d % 3)

/-- The compute die of number ld within block b. -/
def blockDie (b ld : Nat) : Nat := dieAt (3 * (b % 8) + ld % 3) (4 * (b / 8) + ld / 3)

/-- What a channel feeds (R349): a core row, a spine, a base die, a stack, a photonic engine, a Dome die. -/
inductive Rail where
  | row (d h : Nat)
  | spine (d : Nat)
  | base (u r : Nat)
  | stack (n r : Nat)
  | photonic (b r : Nat)
  | dome (i r : Nat)
  deriving DecidableEq, Repr

def railOf (c : Nat) : Rail :=
  let b := c / 50
  let k := c % 50
  if 1600 ≤ c then .dome ((c - 1600) / 2) (c % 2)
  else if k < 24 then .row (blockDie b (k / 2)) (k % 2)
  else if k < 36 then .spine (blockDie b (k - 24))
  else if k < 42 then .base (3 * b + (k - 36) / 2) (k % 2)
  else if k < 48 then .stack (2 * b + (k - 42) / 3) ((k - 42) % 3)
  else .photonic b (k - 48)

/-- The part fits the channel (R348). -/
def State.chFitted (s : State) (c : Nat) : Bool :=
  c < 1616 && (match railOf c with
    | .stack n _ => s.part.hasStack n
    | .photonic _ _ => s.part.hasTransit
    | .dome i _ => s.part.hasDome i
    | _ => true)

/-- Nominal voltage in mV of a fixed rail; a core row has none (R348). -/
def Rail.nominal : Rail → Nat
  | .row _ _ => 0
  | .spine _ => 750
  | .base _ r => if r == 0 then 750 else 800
  | .stack _ r => if r == 0 then 1800 else if r == 1 then 1050 else 750
  | .photonic _ r => if r == 0 then 800 else 3300
  | .dome _ r => if r == 0 then 800 else 1200

/-- Current limit in units of 4 mA (R348). -/
def Rail.limit : Rail → Nat
  | .row _ _ => 6000
  | .spine _ => 1500
  | .base _ r => if r == 0 then 10000 else 4000
  | .stack _ r => if r == 0 then 1000 else if r == 1 then 6000 else 5000
  | .photonic _ r => if r == 0 then 10000 else 1500
  | .dome _ r => if r == 0 then 10000 else 2500

/-- The channel is in the always-on group (R349). -/
def alwaysOn (c : Nat) : Bool := match railOf c with
  | .spine _ => true
  | .dome i _ => 4 ≤ i
  | _ => false

/-- The power command link that serves a channel (R350). -/
def chLink (c : Nat) : Nat :=
  if 1600 ≤ c then (c - 1600) / 4 + 4 * ((c - 1600) / 2 % 2)
  else c / 50 / 8 + (if eastBlock (c / 50) then 4 else 0)

/-- Channels of a link: its four blocks and its Dome die. -/
def linkChs (n : Nat) : List Nat := (List.range 1616).filter (fun c => chLink c == n)

/-- The set voltage that a channel gives. -/
def Channel.volts (x : Channel) : Nat := if !x.on then 0 else if x.retention then x.retMv else x.mv

/-- ROW_V shows the set voltages of a die's rows (R358). -/
def State.rowView (s : State) (c : Nat) : State :=
  match railOf c with
  | .row d h =>
    let x := s.chan c
    let v := if x.retention then x.retMv else x.mv
    s.setFld (spinePage d) (if h == 0 then ROW_V_NORTH_MV else ROW_V_SOUTH_MV) v
  | _ => s

/-! References, R336, R337. -/

def State.ref (s : State) (die : Nat) : RefState := s.power.refs.getD die RefState.reset

/-- Replace what a die knows of its references; a compute die shows it in CLK_STATUS (R358). -/
def State.setRef (s : State) (die : Nat) (x : RefState) : State :=
  let s := { s with power := { s.power with refs := s.power.refs.set die x } }
  if 384 ≤ die then s
  else
    let k := spinePage die
    (((s.setFld k CLK_STATUS_HOLDOVER (b2n x.holdover)).setFld k CLK_STATUS_REFA_OK (b2n x.aOk)).setFld k
      CLK_STATUS_REFB_OK (b2n x.bOk)).setFld k CLK_STATUS_REF_SEL (b2n x.useB)

/-! Row clocks, R340, R376. -/

/-- The row-clock flag of a die's North or South row. -/
def rowRun (h : Bool) : Fld := if h then CLK_STATUS_SOUTH_RUN else CLK_STATUS_NORTH_RUN

/-- The dew state of die d ends: its heater stops and its rows return to their set voltages (R376). -/
def State.dewEnd (s : State) (d : Nat) : State :=
  let k := spinePage d
  if !s.flag k TH_STATUS_DEW then s
  else
    let s := (s.setFld k TH_STATUS_DEW 0).setFld k TH_STATUS_HEATER 0
    (List.range 2).foldl (fun s h =>
      (s.setChan (rowCh d h) { s.chan (rowCh d h) with retention := false }).rowView (rowCh d h)) s

/-- The clock of a row restarts (R340), unless the row has no supply or thermal hold has stopped the arithmetic clocks; the
dew state of its die ends. -/
def State.rowWake (s : State) (d : Nat) (south : Bool) : State :=
  if 2 ≤ s.therm.hold || !(s.chan (rowCh d (b2n south))).on then s
  else (s.dewEnd d).setFld (spinePage d) (rowRun south) 1

/-- Firmware writes a core page, or work for a core falls due: the clock of its row restarts (R340). -/
def State.siteWake (s : State) (g : Nat) : State :=
  if s.flag (spinePage (dieOfSite g)) (rowRun (8 ≤ g % 16)) then s else s.rowWake (dieOfSite g) (8 ≤ g % 16)

end Sys2Proof.Machine
end

