-- ==== Sys2Proof/Machine/Rings.lean ====
section
/-! DEFINITION. The capability record (R3–R7), the rings of a host function (R282–R288, R489), notices
(R296) and completion records on their way to the host (R287, R295). -/

namespace Sys2Proof.Machine

/-- A slice has left service if it is listed; a stack is lost when all its slices are (R416). -/
def State.stackUp (s : State) (n : Nat) : Bool :=
  s.part.hasStack n && s.boot.trained && s.blockOn (n / 2)
    && !((List.range 64).all (fun p => s.hbm.downNow.contains (64 * n + p)))

/-- Slices in the interleave built at the last start-up (R220). -/
def State.hbmN (s : State) : Nat := (if s.part.hasEast then 4096 else 2048) - s.hbm.downAtBuild.length

def popMask (n : Nat) (f : Nat → Bool) : Nat :=
  iter n (fun i a => if f i then a + 2 ^ i else a) 0

/-- The running firmware version: of M0, or of M1 while M0 does not run. -/
def State.fwVersion (s : State) : W32 := if s.boot.c0.running then s.boot.c0.version else s.boot.c1.version

/-- UNIFORM_GBPS (R271). -/
def Part.uniform (p : Part) : Nat := if p.hasEast then 24 else 12

/-- The first 60 bytes of the capability record (R5) as a number; RECORD_GEN is added by the caller. -/
def State.capBody (s : State) (gen : Nat) : Nat :=
  (0x5A42 * 2 ^ 48 + 0x01 * 2 ^ 40 + s.part.code * 2 ^ 32 + s.part.stepping * 2 ^ 16 + s.countedCores)
  + popMask 64 s.stackUp * 2 ^ 64
  + ((if s.hbm.built then s.hbmN * 3 / 4 else 0) * 2 ^ 32 + s.part.grade * 2 ^ 16
      + popMask 4 s.part.hasPort * 2 ^ 8 + popMask 4 (fun p => (s.port p).up) * 2 ^ 4
      + (if s.part.hasTransit then 8 else 0) + (if s.panel.transitUp then 4 else 0)
      + (if s.panel.facilityUp then 2 else 0) + (if s.boot.ready then 1 else 0)) * 2 ^ 128
  + (s.panel.blockOnline.toNat * 2 ^ 32 + 0x1000 * 2 ^ 16 + 0x40 * 2 ^ 8
      + (if s.panel.hbmDegraded then 1 else 0)) * 2 ^ 192
  + (s.fwVersion.toNat * 2 ^ 32 + gen) * 2 ^ 256
  + (0x0320 * 2 ^ 48 + 0x00C8 * 2 ^ 32 + 0x03E8 * 2 ^ 16 + s.part.uniform) * 2 ^ 320
  + (0x2EE0 * 2 ^ 32 + s.panel.ceilingW) * 2 ^ 384

/-- The Live fields of the record, whose change advances RECORD_GEN. -/
def State.capLive (s : State) : Nat := s.capBody 0

/-- The 64 bytes of the record. CHECK is the CRC-32C over bytes 0x00–0x3B as they lie in the record, the low
half of word 0x38 being reserved and zero (log entry 6). -/
def State.capRecord (s : State) : Nat :=
  let b := s.capBody s.panel.recordGen.toNat
  b + (crc32c (toBytes b 60)).toNat * 2 ^ 480

/-- Entries of a ring (R283): LOG2SIZE below 4 acts as 4, above 12 as 12. -/
def ringSize (log2 : Nat) : Nat := 2 ^ (max 4 (min 12 log2))

/-- Send MSI-X vector v of a function (R288): a masked vector becomes pending. -/
def State.msix (s : State) (p f v : Nat) : State :=
  let bp := barPage p f
  if bit (s.reg (bp + 0x2008 + 16 * v) 0x100000000) 32 then
    s.setReg (bp + 0x2800) (s.reg (bp + 0x2800) 0 ||| BitVec.ofNat 64 (2 ^ v))
  else
    let x := s.func p f
    s.setFunc p f (if v = 0 then { x with msix0 := x.msix0 + 1 } else { x with msix1 := x.msix1 + 1 })

/-- The completion ring can take an entry. -/
def State.cqRoom (s : State) (p f : Nat) : Bool :=
  let bp := barPage p f
  s.flag bp CQ_CFG_ENABLE
    && !((s.fld bp CQ_CFG_TAIL + 1) % ringSize (s.fld bp CQ_CFG_LOG2SIZE) == (s.func p f).cqHead)

/-- Write one entry to the completion ring, with the phase, and count it unsignalled; vector 1 goes out when
COALESCE records are unsignalled (R288). A completion record ends its handle's life (R293). -/
def State.cqPut (s : State) (p f : Nat) (e : Held) : State :=
  let bp := barPage p f
  let x := s.func p f
  let size := ringSize (s.fld bp CQ_CFG_LOG2SIZE)
  let tail := s.fld bp CQ_CFG_TAIL
  let w0 := setBits e.q.w0 40 40 (if x.cqPhase then 1 else 0)
  let v := w0.toNat + e.q.w1.toNat * 2 ^ 64 + e.q.w2.toNat * 2 ^ 128 + e.q.w3.toNat * 2 ^ 192
  let s := s.hostWrite p ((s.reg (bp + 0x190) 0).toNat / 4096 * 4096 + 32 * tail) 32 v
  let wrap := tail + 1 == size
  let s := s.setFld bp CQ_CFG_TAIL ((tail + 1) % size)
  let s := s.setFunc p f { x with cqPhase := if wrap then !x.cqPhase else x.cqPhase,
                                  unsignalled := x.unsignalled + 1 }
  let s := if e.notice then s else { s with handles := s.handles.filter (fun h => h.h != e.h) }
  if max 1 (s.fld bp CQ_CFG_COALESCE) ≤ x.unsignalled + 1 then
    (s.setFunc p f { s.func p f with unsignalled := 0 }).msix p f 1
  else s

/-- Write held entries, in their order, while room appears (R287). -/
def State.cqFlushN (s : State) (p f : Nat) (n : Nat) : State :=
  match n with
  | 0 => s
  | k + 1 =>
    match (s.func p f).held with
    | [] => s
    | e :: r =>
      if s.cqRoom p f then
        ((s.setFunc p f { s.func p f with held := r }).cqPut p f e).cqFlushN p f k
      else s

def State.cqFlush (s : State) (p f : Nat) : State := s.cqFlushN p f (s.func p f).held.length

/-- Hold an entry; of more than 256 notices the oldest is discarded (R287). -/
def holdEntry (l : List Held) (e : Held) : List Held :=
  if e.notice && 256 ≤ (l.filter (fun x => x.notice)).length then
    let i := (l.findIdx? (fun x => x.notice)).getD 0
    l.eraseIdx i ++ [e]
  else l ++ [e]

/-- Entries enter the completion ring in the order they arise (R287). -/
def State.toCq (s : State) (p f : Nat) (e : Held) : State :=
  (s.setFunc p f { s.func p f with held := holdEntry (s.func p f).held e }).cqFlush p f

/-- Word 0 of a notice (R296). -/
def noticeW0 (kind part : Nat) : W64 := BitVec.ofNat 64 (kind * 2 ^ 48 + part * 2 ^ 41)

/-- A notice to a function. -/
def State.noticeFn (s : State) (p f kind part : Nat) (a0 a1 a2 : Nat) : State :=
  s.toCq p f ⟨part, true, 0#32,
    ⟨noticeW0 kind part, BitVec.ofNat 64 a0, BitVec.ofNat 64 a1, BitVec.ofNat 64 a2⟩⟩

/-- A notice to the function bound to partition q, held for the partition while it is orphaned (R296). -/
def State.noticePart (s : State) (q kind a0 a1 a2 : Nat) : State :=
  let x := s.prt q
  let e : Held := ⟨q, true, 0#32,
    ⟨noticeW0 kind q, BitVec.ofNat 64 a0, BitVec.ofNat 64 a1, BitVec.ofNat 64 a2⟩⟩
  if x.bound then s.toCq x.hport x.hfunc e
  else if x.orphaned then s.setPrt q { x with held := holdEntry x.held e }
  else s

def noteCap : Nat := 1
def noteRebound : Nat := 2
def noteLive : Nat := 3
def noteQuota : Nat := 4
def noteRelease : Nat := 5
def noteRole : Nat := 6
def noteHealth : Nat := 7
def notePaused : Nat := 8
def noteResumed : Nat := 9
def noteCeiling : Nat := 10

/-- Partition identifiers. -/
def partIds : List Nat := List.range 64

/-- The partition exists. -/
def Partition.live (x : Partition) : Bool := x.state != .free

/-- CAP_CHANGE to every function of every port whose link is up (R296). -/
def State.capNotices (s : State) : State :=
  iter 256 (fun i s =>
    if (s.port (i / 64)).up && s.part.hasPort (i / 64) then
      s.noticeFn (i / 64) (i % 64) noteCap 127 s.panel.recordGen.toNat 0 0
    else s) s

/-- After a change: when a Live field of the record differs, RECORD_GEN advances by 1 and the change is
notified (R5, R6, R296). -/
def State.capSync (new old : State) : State :=
  if new.capLive == old.capLive then new
  else
    let s := { new with panel := { new.panel with recordGen := new.panel.recordGen + 1#32 } }
    s.capNotices

/-- A notice to the function bound to each partition that exists. -/
def State.noticeAll (s : State) (kind a0 a1 a2 : Nat) : State :=
  partIds.foldl (fun s q => if (s.prt q).live then s.noticePart q kind a0 a1 a2 else s) s

/-- The completion ring and reply ring as R309 and R283 leave them: disabled, pointers zeroed; `bases` when
the bases are zeroed too (link-down). -/
def State.ringsOff (s : State) (p f : Nat) (bases : Bool) : State :=
  let bp := barPage p f
  let s := iter 8 (fun i s =>
    let s := (s.setFld bp (SQ_CFG_ENABLE i) 0).setFld bp (SQ_CFG_HEAD i) 0
    if bases then s.setReg (bp + 0x100 + 16 * i) 0#64 else s) s
  let s := ((s.setFld bp RQ_CFG_ENABLE 0).setFld bp RQ_CFG_TAIL 0)
  let s := ((s.setFld bp CQ_CFG_ENABLE 0).setFld bp CQ_CFG_TAIL 0)
  let s := ((s.setFld bp LOG_CFG_ENABLE 0).setFld bp LOG_CFG_TAIL 0)
  let s := if bases then ((s.setReg (bp + 0x180) 0#64).setReg (bp + 0x190) 0#64).setReg (bp + 0x1A0) 0#64 else s
  let s := if s.panel.logRing = some (p, f) then { s with panel := { s.panel with logRing := none } } else s
  s.setFunc p f { s.func p f with sqTail := [], rqHead := 0, cqHead := 0, logHead := 0, unsignalled := 0 }

/-- Place a reply in the reply ring (R286, R290) and send vector 0; a reply owed to a disabled ring is
discarded (R309). -/
def State.reply (s : State) (p f status : Nat) (h : W32) (cid : BitVec 16) (later : Bool) (value : W64) : State :=
  let bp := barPage p f
  if s.flag bp RQ_CFG_ENABLE then
    let x := s.func p f
    let size := ringSize (s.fld bp RQ_CFG_LOG2SIZE)
    let tail := s.fld bp RQ_CFG_TAIL
    let w0 := h.toNat * 2 ^ 32 + cid.toNat * 2 ^ 16 + (if x.rqPhase then 2 ^ 10 else 0)
      + (if later then 2 ^ 9 else 0) + status
    let s := s.hostWrite p ((s.reg (bp + 0x180) 0).toNat / 4096 * 4096 + 16 * tail) 16
      (w0 + value.toNat * 2 ^ 64)
    let s := s.setFld bp RQ_CFG_TAIL ((tail + 1) % size)
    (s.setFunc p f { x with rqPhase := if tail + 1 == size then !x.rqPhase else x.rqPhase }).msix p f 0
  else s

/-- Write an error record to the ring of R489; a record that finds it full is not written to it (R384). -/
def State.logPut (s : State) (r : ErrRecord) : State :=
  match s.panel.logRing with
  | none => s
  | some (p, f) =>
    let bp := barPage p f
    let size := ringSize (s.fld bp LOG_CFG_LOG2SIZE)
    let tail := s.fld bp LOG_CFG_TAIL
    if !s.flag bp LOG_CFG_ENABLE then s
    else if (tail + 1) % size == (s.func p f).logHead then
      (s.addSat (domePage 4) ERR_STATUS_LOG_DROPPED 1).addSat (domePage 5) ERR_STATUS_LOG_DROPPED 1
    else
      let v := r.a.w0.toNat + r.a.w1.toNat * 2 ^ 64 + r.a.w2.toNat * 2 ^ 128 + r.a.w3.toNat * 2 ^ 192
        + r.b.w0.toNat * 2 ^ 256 + r.b.w1.toNat * 2 ^ 320 + r.b.w2.toNat * 2 ^ 384 + r.b.w3.toNat * 2 ^ 448
      let s := s.hostWrite p ((s.reg (bp + 0x1A0) 0).toNat / 4096 * 4096 + 64 * tail) 64 v
      s.setFld bp LOG_CFG_TAIL ((tail + 1) % size)

/-- Priority of a final status (R297): the larger stands. -/
def statusRank (st : Nat) : Nat :=
  match st with
  | 0x24 => 9
  | 0x21 => 8
  | 0x20 => 7
  | 0x22 => 6
  | 0x23 => 5
  | 0x25 => 4
  | 0x03 => 3
  | 0x02 => 2
  | 0x01 => 1
  | _ => 0

def stOk : Nat := 0
def stWarn : Nat := 1
def stPromoted : Nat := 2
def stRolled : Nat := 3
def stRejOpcode : Nat := 0x10
def stRejParam : Nat := 0x11
def stRejQuota : Nat := 0x12
def stRejNoHandle : Nat := 0x13
def stRejState : Nat := 0x14
def stRejRole : Nat := 0x15
def stContained : Nat := 0x20
def stStateLost : Nat := 0x21
def stTimeout : Nat := 0x22
def stAbortHost : Nat := 0x23
def stAbortPanel : Nat := 0x24
def stCfgLocked : Nat := 0x25

/-- The higher of two statuses (R297). -/
def statusMax (a b : Nat) : Nat := if statusRank a < statusRank b then b else a

/-- The live handle numbered h. -/
def State.handle (s : State) (h : W32) : Option Handle := s.handles.find? (fun x => x.h == h)

def State.updHandle (s : State) (h : W32) (f : Handle → Handle) : State :=
  { s with handles := s.handles.map (fun x => if x.h == h then f x else x) }

def sat16 (n : Nat) : Nat := min n 0xFFFF

/-- The completion record of a handle (R295); commands other than RUN report zero counts and a zero epoch. -/
def Handle.record (x : Handle) (status : Nat) : Quad :=
  let run := x.opcode == 0x30
  let c := fun k => if run then sat16 (x.cnt.getD k 0) else 0
  let satd := run && ((x.cnt.any (fun e => 0xFFFF < e.2)) || 0xFFFF < x.warned || 0xFFFF < x.promoted)
  ⟨BitVec.ofNat 64 ((if run then x.epoch % 2 ^ 20 * 2 ^ 44 else 0) + (if satd then 2 ^ 43 else 0)
      + (if x.locked then 2 ^ 42 else 0) + status * 2 ^ 32 + x.h.toNat),
   BitVec.ofNat 64 (x.charged % 2 ^ 48 * 2 ^ 16 + (if run then sat16 x.warned else 0)),
   BitVec.ofNat 64 ((if run then sat16 x.promoted else 0) * 2 ^ 48 + c 0 * 2 ^ 32 + c 1 * 2 ^ 16 + c 2),
   BitVec.ofNat 64 (c 3 * 2 ^ 48 + c 4 * 2 ^ 32 + c 5 * 2 ^ 16 + c 6)⟩

/-- The status of a handle is decided; its record is due (R295, R314). -/
def State.endWith (s : State) (h : W32) (status : Nat) : State :=
  s.updHandle h (fun x => if x.state == .complete then x else { x with state := .complete, status := status, due := true })

/-- The record of a decided handle goes to its partition's function, or to the function that issued it when
its slot is of the panel pool (R293), and is held where it cannot be written (R287). -/
def State.queueRecord (s : State) (h : W32) : State :=
  match s.handle h with
  | none => s
  | some x =>
    if !x.due then s else
    let s := s.updHandle h (fun x => { x with due := false })
    let e : Held := ⟨x.part, false, h, x.record x.status⟩
    if 4032 ≤ h.toNat / 2 ^ 20 then s.toCq x.port x.func e
    else
      let q := s.prt x.part
      if q.bound then s.toCq q.hport q.hfunc e
      else s.setPrt x.part { q with held := holdEntry q.held e }

/-- A command ends: its status is decided and its record queued. -/
def State.complete (s : State) (h : W32) (status : Nat) : State := (s.endWith h status).queueRecord h

end Sys2Proof.Machine
end

