-- ==== Sys2Proof/Machine/Report.lean ====
section
/-! DEFINITION. Errors on their way to the log: the error record (R382–R384), the admission of contained
errors (R385–R389), the stopping of cores and the pausing of partitions they need. -/

namespace Sys2Proof.Machine

/-- Sources of R383. -/
def srcProg : Nat := 0x01
def srcArith : Nat := 0x02
def srcSpUe : Nat := 0x03
def srcSiteLost : Nat := 0x04
def srcDieLost : Nat := 0x05
def srcBaseLost : Nat := 0x06
def srcBlockDark : Nat := 0x07
def srcHbmLost : Nat := 0x08
def srcHostLost : Nat := 0x09
def srcSpCe : Nat := 0x10
def srcHbmCe : Nat := 0x11
def srcResReplay : Nat := 0x12
def srcSurvey : Nat := 0x13
def srcRowFull : Nat := 0x14
def srcLane : Nat := 0x15
def srcWave : Nat := 0x16
def srcLinkDown : Nat := 0x17
def srcClock : Nat := 0x18
def srcSensor : Nat := 0x19
def srcMgmtPath : Nat := 0x1A
def srcTakeover : Nat := 0x1B
def srcPhotonic : Nat := 0x1C
def srcAlmanac : Nat := 0x20
def srcMgmtSplit : Nat := 0x21
def srcSecurity : Nat := 0x22
def srcEscalated : Nat := 0x23
def srcExpel : Nat := 0x30
def srcExpelDeferred : Nat := 0x31
def srcReinstate : Nat := 0x32
def srcStorm : Nat := 0x33
def srcProgress : Nat := 0x34

/-- The sources R383 calls scored. -/
def srcScored (src : Nat) : Bool :=
  [0x02, 0x03, 0x04, 0x05, 0x10, 0x12, 0x13, 0x14, 0x15, 0x16, 0x19].contains src

/-- Bits [63:10] of word 0x10: SITE, DIE, BLOCK, STACK, PCH, PORT, LANE. -/
def locWord (site die block stack pch port lane : Nat) : Nat :=
  site * 2 ^ 41 + die * 2 ^ 32 + block * 2 ^ 27 + stack * 2 ^ 21 + pch * 2 ^ 15 + port * 2 ^ 11 + lane

/-- The location of a site, of a compute die or router, of a block, of a stack, and of nothing. -/
def locSite (g : Nat) : Nat := locWord g (dieOfSite g) (blockOf (dieOfSite g)) 0x3F 0x3F 0 0
def locDie (d : Nat) : Nat := locWord 0x1FFF d (blockOf d) 0x3F 0x3F 0 0
def locBlock (b : Nat) : Nat := locWord 0x1FFF 0x1FF b 0x3F 0x3F 0 0
def locSlice (n p : Nat) : Nat := locWord 0x1FFF 0x1FF (n / 2) n p 0 0
def locLink (r p lane : Nat) : Nat := locWord 0x1FFF r (blockOf r) 0x3F 0x3F p lane
def locNone : Nat := locWord 0x1FFF 0x1FF 0 0x3F 0x3F 0 0

/-- The controller that logs an error of a half: its own, or the other when it does not run (R392, R393). -/
def State.ctlOf (s : State) (east : Bool) : Nat :=
  if east then (if s.boot.c1.running then 1 else 0) else (if s.boot.c0.running then 0 else 1)

/-- What a record says besides its number and time. -/
structure RecSpec where
  src : Nat
  cls : Nat
  domain : Nat
  action : Nat
  escalated : Bool
  merged : Bool
  part : Nat
  handle : W32
  loc : Nat
  count : Nat
  addr : W64
  detail : Quad
  ms : Nat

def quad0 : Quad := ⟨0#64, 0#64, 0#64, 0#64⟩

/-- Write a record (R382, R384): SEQNO advances by 1, both management dies keep the most recent 4,096, and
the host's ring takes it when one is set. -/
def State.logRec (s : State) (r : RecSpec) : State :=
  let n := (s.fld (domePage 4) ERR_STATUS_SEQNO + 1) % 2 ^ 32
  let s := (s.setFld (domePage 4) ERR_STATUS_SEQNO n).setFld (domePage 5) ERR_STATUS_SEQNO n
  let east := eastBlock (r.loc / 2 ^ 27 % 32)
  let rec1 : ErrRecord :=
    ⟨⟨BitVec.ofNat 64 (n * 2 ^ 32 + r.src * 2 ^ 24 + r.cls * 2 ^ 22 + r.domain * 2 ^ 19 + r.action * 2 ^ 16
        + (if r.escalated then 2 ^ 15 else 0) + (if srcScored r.src then 2 ^ 14 else 0)
        + (if r.merged then 2 ^ 13 else 0) + r.part),
      BitVec.ofNat 64 (r.handle.toNat * 2 ^ 32 + r.ms % 2 ^ 31 * 2 + s.ctlOf east),
      BitVec.ofNat 64 (r.loc * 2 ^ 10 + max 1 (min r.count 1023)), r.addr⟩, r.detail⟩
  let l := s.err.log ++ [rec1]
  { s with err := { s.err with log := l.drop (l.length - 4096) } }.logPut rec1

/-- An event record of sources 0x30–0x34, or another record that is logged at once. -/
def State.logEvent (s : State) (src cls domain action part loc : Nat) (detail : Quad) : State :=
  s.logRec ⟨src, cls, domain, action, false, false, part, 0#32, loc, 1, 0#64, detail, s.ms⟩

/-- A corrected error: it counts against the given scored dies, and it is logged at once unless a like one
was logged within the second, when it is coalesced (R384, R396). -/
def State.logCorrected (s : State) (src part loc : Nat) (addr : W64) (dies : List Nat) : State :=
  let s := dies.foldl (fun s k => s.addScore k (scoreWeight src)) s
  match s.err.coalesced.find? (fun e => e.1 == src && e.2.1 == loc) with
  | some _ =>
    { s with err := { s.err with coalesced := s.err.coalesced.map (fun e =>
        if e.1 == src && e.2.1 == loc then (e.1, e.2.1, e.2.2 + 1) else e) } }
  | none =>
    { s with err := { s.err with coalesced := s.err.coalesced ++ [(src, loc, 0)] } }.logRec
      ⟨src, 0, 0, 0, false, false, part, 0#32, loc, 1, addr, quad0, s.ms⟩

/-- The site that carries slot j of die d, if the slot is mapped (R213, R216). -/
def State.slotSite (s : State) (d j : Nat) : Option Nat :=
  if j < 14 && s.flag (spinePage d) (SLOT_MAP_VALID j) then
    some (16 * d + s.fld (spinePage d) (SLOT_MAP_SITE j))
  else none

/-- Sites that carry the logical cores of partition q. -/
def State.partSites (s : State) (q : Nat) : List Nat :=
  (s.prt q).cores.filterMap (fun e => s.slotSite e.2.1 e.2.2)

/-- STOP of one sequencer (R122, R124). -/
def Core.stop (c : Core) : Core :=
  match c.seq with
  | .run => { c with frozenFrom := .run, seq := .frozen }
  | .wait => { c with frozenFrom := .wait, seq := .frozen }
  | _ => c

/-- RESUME of one sequencer (R122, R124). -/
def Core.resume (c : Core) : Core :=
  match c.seq with
  | .frozen => { c with seq := c.frozenFrom }
  | _ => c

def State.stopSites (s : State) (l : List Nat) : State := l.foldl (fun s g => s.updCore g Core.stop) s

/-- Base die u carries slice ports (R20, R418). -/
def State.sliced (s : State) (u : Nat) : Bool := u % 3 != 1 && s.part.hasStack (2 * (u / 3) + u % 3 / 2)

/-- Sites of a domain instance (R381): 0 a site, 1 a die, 2 a block, 3 the cores of a partition, 4 all. -/
def State.domSites (s : State) (domain site die block part : Nat) : List Nat :=
  match domain with
  | 0 => [site]
  | 1 => (List.range 16).map (fun i => 16 * die + i)
  | 2 => (blockDies block).flatMap (fun d => (List.range 16).map (fun i => 16 * d + i))
  | 3 => s.partSites part
  | _ => List.range 6144

/-- Nothing panel-wide, nothing about its die and no error keeps site g FROZEN: thermal hold (R371), die hold (R366), the full
reset of a base die with slice ports (R418), an uncontained error (R390), an error that waits (R388), and the recovery of
its job (R410). -/
def State.siteFree (s : State) (g : Nat) : Bool :=
  s.therm.hold == 0 && !(s.therm.unit.getD (dieOfSite g) Sensed.reset).hold
    && !s.err.resetting.any (fun u => s.sliced u) && !s.boot.held390
    && !s.err.queue.any (fun e => (s.domSites e.domain e.site e.die e.block e.part).contains g)
    && (match s.err.handling with
      | some h => (s.core g).handle == 0#32 || !h.jobs.contains (s.core g).handle
      | none => true)

/-- RESUME to those of a list that nothing else keeps FROZEN. -/
def State.resumeSites (s : State) (l : List Nat) : State :=
  (l.filter (fun g => s.siteFree g)).foldl (fun s g => s.updCore g Core.resume) s

/-- A site that has been started is stopped again where something keeps it FROZEN. -/
def State.gated (s : State) (g : Nat) : State := if s.siteFree g then s else s.updCore g Core.stop

/-- Sites on which a job runs: those whose core belongs to handle h. -/
def State.jobSites (s : State) (h : W32) : List Nat :=
  (s.cores.filter (fun e => e.2.handle == h && h != 0#32)).map (fun e => e.1)

/-- Pause a partition for a cause (R305, R316), with the PAUSED notice when it has a reason. -/
def State.pausePart (s : State) (q : Nat) (cause : PauseCause) (reason : Option Nat) : State :=
  let x := s.prt q
  let had := x.causes.contains cause
  let s := s.setPrt q { x with
    causes := if had then x.causes else x.causes ++ [cause]
    state := if x.state == .active then .paused else x.state }
  let s := s.stopSites (s.partSites q)
  match reason with
  | some r => if had then s else s.noticePart q notePaused r 0 0
  | none => s

/-- End a cause of pause; with none left the partition runs again (R305, R316). -/
def State.unpausePart (s : State) (q : Nat) (cause : PauseCause) (note : Bool) : State :=
  let x := s.prt q
  let left := x.causes.filter (fun c => c != cause)
  if x.causes.contains cause then
    let s := s.setPrt q { x with causes := left,
                                 state := if left.isEmpty && x.state == .paused then .active else x.state }
    if left.isEmpty && x.state == .paused then
      let s := s.resumeSites (s.partSites q)
      if note then s.noticePart q noteResumed 0 0 0 else s
    else s
  else s

/-- Two domain instances touch when they share a core site (R386); a site that has taken over a logical core belongs to the
domain being handled (R413). -/
def State.touches (s : State) (h : Handling) (e : ErrItem) : Bool :=
  let a := s.domSites h.domain h.item.site h.item.die h.item.block h.item.part ++ h.newSites
  (s.domSites e.domain e.site e.die e.block e.part).any (fun g => a.contains g)

/-- Begin or go on with an error storm (R389): STORM is recorded once, and every partition pauses. -/
def State.stormBegin (s : State) : State :=
  if s.err.storm then s
  else
    let s := { s with err := { s.err with storm := true } }
    let s := s.logEvent srcStorm 0 4 0 127 locNone ⟨1#64, 0#64, 0#64, 0#64⟩
    partIds.foldl (fun s q => if (s.prt q).live then s.pausePart q .storm (some 4) else s) s

/-- Place an error in the queue of 256 (R388), or beyond it in a storm (R389); its cores are stopped. -/
def State.queueErr (s : State) (e : ErrItem) : State :=
  let s := s.stopSites (s.domSites e.domain e.site e.die e.block e.part)
  if s.err.queue.length < 256 && s.err.overflow.isEmpty then
    { s with err := { s.err with queue := s.err.queue ++ [e] } }
  else { s with err := { s.err with overflow := s.err.overflow ++ [e] } }.stormBegin

/-- Complete every live handle with a status (R390, R465); a firmware update stops at its step (R472). -/
def State.completeAll (s : State) (status : Nat) : State :=
  let s := s.handles.foldl (fun s h => s.complete h.h status) s
  { s with boot := { s.boot with update := none } }

/-- An uncontained error (R390): its record, every live handle ABORT_PANEL, READY cleared, and a panel reset
pending when ERR_CFG.UNCONT_RESET is set, else every partition held. -/
def State.uncontained (s : State) (src loc : Nat) : State :=
  let s0 := s
  let s := s.logEvent src 2 4 7 127 loc quad0
  let s := s.completeAll stAbortPanel
  let reset := s.flag (domePage 4) ERR_CFG_UNCONT_RESET
  let s := { s with boot := { s.boot with ready := false, resetPending := reset, held390 := !reset } }
  let s := if reset then s else
    partIds.foldl (fun s q => if (s.prt q).live then s.stopSites (s.partSites q) else s) s
  s.capSync s0

/-- Admit a contained error. While an error is being handled, a fault of a job in recovery is a consequence
and only counted (R411); a touching error escalates the handling by one size, past the partition domain to
an uncontained error (R386), and it is the die of the site that fails now that is retired (R413); an error in a core of a job being rolled back joins the recovery (R387); every
other waits (R388). -/
def State.raiseErr (s : State) (e : ErrItem) : State :=
  let s := { s with err := { s.err with arrivals := (s.ms :: s.err.arrivals).take 16 } }
  match s.err.handling with
  | none => s.queueErr e
  | some h =>
    let inJob := (s.domSites e.domain e.site e.die e.block e.part).any
      (fun g => h.jobs.contains (s.core g).handle && (s.core g).handle != 0#32)
    if inJob && e.source ≤ 3 then
      { s with err := { s.err with handling := some { h with consequences := h.consequences + 1 } } }
    else if s.touches h e then
      let d := max h.domain e.domain + 1
      let big := if h.domain < e.domain || (h.domain == 0 && e.domain == 0) then e else h.item
      if 3 < d then
        { s with err := { s.err with handling := none } }.uncontained srcEscalated h.item.loc
      else
        { s with err := { s.err with handling := some { h with
            domain := d, escalated := true, phase := 0, item := { h.item with die := big.die, block := big.block, part := big.part },
            mergedItems := h.mergedItems ++ [e] } } }
    else if inJob then
      { s with err := { s.err with handling := some { h with mergedItems := h.mergedItems ++ [{ e with merged := true }] } } }
    else s.queueErr e

/-- An error of this source at this site or die waits or is being handled. -/
def State.errKnown (s : State) (src site die : Nat) : Bool :=
  let same := fun (e : ErrItem) => e.source == src && e.site == site && e.die == die
  s.err.queue.any same || s.err.overflow.any same
    || (match s.err.handling with | some h => same h.item || h.mergedItems.any same | none => false)

/-- A site in service declared lost (R397): SITE_LOST in its core domain, scored against its die. -/
def State.siteLost (s : State) (g : Nat) : State :=
  if 1 < s.siteState g || s.errKnown srcSiteLost g (dieOfSite g) then s
  else
    let c := s.core g
    let s := s.addScore (dieOfSite g) (scoreWeight srcSiteLost)
    s.raiseErr ⟨srcSiteLost, 0, c.part, c.handle, g, dieOfSite g, blockOf (dieOfSite g), 0#64, quad0, false, s.ms,
      locSite g⟩

/-- A die in service declared lost (R397). -/
def State.dieLost (s : State) (d : Nat) : State :=
  if 2 < s.dieState d || s.errKnown srcDieLost (16 * d) d then s
  else s.raiseErr ⟨srcDieLost, 1, 127, 0#32, 16 * d, d, blockOf d, 0#64, quad0, false, s.ms, locDie d⟩

/-- A block-domain error: BASE_LOST, BLOCK_DARK or HBM_LOST. -/
def State.blockErr (s : State) (src b loc : Nat) (die : Nat) : State :=
  s.raiseErr ⟨src, 2, 127, 0#32, 16 * die, die, b, 0#64, quad0, false, s.ms, loc⟩

end Sys2Proof.Machine
end

