-- ==== Sys2Proof/Machine/CoreOps.lean ====
section
/-! DEFINITION. What a core's sequencer and engines do in common: the protected scratchpad and its owners
(R189–R193), completion counters (R104, R127), core faults (R125–R127), idleness (R130), and the values the
sequencer's status registers show. -/

namespace Sys2Proof.Machine

/-- Units that own banks (R193). -/
def ownSeq : Nat := 0
def ownMac : Nat := 1
def ownVec : Nat := 2
def ownEdge : Nat := 3
def ownDma : Nat := 4
def ownWindow : Nat := 5

/-- Engine codes of R126. -/
def engSeq : Nat := 0
def engMac : Nat := 1
def engVec : Nat := 2
def engEdge : Nat := 3
def engDma : Nat := 4
def engFinder : Nat := 5

/-- Fault kinds of R127. -/
def fkIllegal : Nat := 0x01
def fkRange : Nat := 0x02
def fkBank : Nat := 0x03
def fkKovf : Nat := 0x04
def fkResidue : Nat := 0x10
def fkParity : Nat := 0x11
def fkFinder : Nat := 0x12
def fkRefused : Nat := 0x20
def fkTimeout : Nat := 0x21
def fkScratchUe : Nat := 0x30

/-- The source of a fault kind (R383). -/
def fkSource (kind : Nat) : Nat :=
  if kind == 0x30 then srcSpUe else if 0x10 ≤ kind && kind ≤ 0x12 then srcArith else srcProg

/-- Owner of bank i of site g (R193). -/
def State.owner (s : State) (g i : Nat) : Nat := s.fld (corePage g) (SP_BANK_OWNER i)

/-- Bank and logical row of a scratchpad byte (R189). -/
def bankOf (a : Nat) : Nat := a / 262144
def rowOf (a : Nat) : Nat := a % 262144 / 256

/-- Every bank that [a, a+n) touches belongs to the unit (R200). -/
def State.owns (s : State) (g own a n : Nat) : Bool :=
  n == 0 || ((List.range (bankOf (a + n - 1) + 1 - bankOf a)).all (fun i => s.owner g (bankOf a + i) == own))

/-- First byte of [a, a+n) in a bank the unit does not own. -/
def State.notOwned (s : State) (g own a n : Nat) : Nat :=
  (((List.range (bankOf (a + n - 1) + 1 - bankOf a)).map (fun i => bankOf a + i)).find?
    (fun b => s.owner g b != own)).elim a (fun b => max a (b * 262144))

/-- Physical row of a logical row: the spare row of a MAPPED entry that names it (R206). -/
def State.physRow (s : State) (g bank lrow : Nat) : Nat :=
  match ((s.core g).sp.maps.range (64 * bank) (64 * bank + 64)).find? (fun e => e.2.state == 1 && e.2.lrow == lrow) with
  | some e => 1024 + e.1 % 64
  | none => lrow

/-- A FREE spare of the bank exists (R205, R206). -/
def State.freeSpare (s : State) (g bank : Nat) : Option Nat :=
  (List.range 64).find? (fun e => ((s.core g).sp.maps.getD (64 * bank + e) ⟨0, 0⟩).state == 0)

/-- SP_LASTERR for a granule (R211). -/
def State.setLastErr (s : State) (g kind a port syn : Nat) : State :=
  let bank := bankOf a
  let w := kind * 2 ^ 62 + bank * 2 ^ 57 + s.physRow g bank (rowOf a) * 2 ^ 46 + a % 256 / 32 * 2 ^ 43
    + a % 32 / 8 * 2 ^ 41 + port * 2 ^ 40 + syn * 2 ^ 32
  s.setReg (corePage g + 0x7E0) (BitVec.ofNat 64 w)

/-- The tracker after a corrected read of a row (R192): its count, or a new entry in place of the one with
the lowest count, or the lowest row among equals, when all 8 of the bank are in use. -/
def trackHit (l : List (Nat × Nat × Nat)) (bank row : Nat) : List (Nat × Nat × Nat) :=
  if l.any (fun e => e.1 == bank && e.2.1 == row) then
    l.map (fun e => if e.1 == bank && e.2.1 == row then (e.1, e.2.1, e.2.2 + 1) else e)
  else
    let mine := l.filter (fun e => e.1 == bank)
    if mine.length < 8 then l ++ [(bank, row, 1)]
    else
      match mine.foldl (fun (best : Option (Nat × Nat × Nat)) e =>
          match best with
          | none => some e
          | some b => if e.2.2 < b.2.2 || (e.2.2 == b.2.2 && e.2.1 < b.2.1) then some e else some b) none with
      | some v => l.filter (fun e => e != v) ++ [(bank, row, 1)]
      | none => l ++ [(bank, row, 1)]

/-- A read corrects a granule of site g's scratchpad (R192): counted, tracked, its write-back made pending
when SCRUB_EN is set, and its row reported and its tracker entry cleared at CE_THRESH, against the die's
score when no spare is left (R208). -/
def State.corrected (s : State) (g a port : Nat) : State :=
  let bp := corePage g
  let bank := bankOf a
  let row := s.physRow g bank (rowOf a)
  let s := s.addSat bp SP_STATUS_CE_TOTAL 1
  let s := s.setLastErr g 0 a port (Config.syndrome s.free).toNat
  let s := { s with free := s.free + 1 }
  let c := s.core g
  let t := trackHit c.sp.track bank row
  let cnt : Nat := ((t.find? (fun e => e.1 == bank && e.2.1 == row)).map (fun e => e.2.2)).getD 0
  let hit : Bool := max 1 (s.fld bp SP_CFG_CE_THRESH) ≤ cnt
  let t : List (Nat × Nat × Nat) := if hit then t.filter (fun e => !(e.1 == bank && e.2.1 == row)) else t
  let scrub := if s.flag bp SP_CFG_SCRUB_EN then setIns c.sp.scrub a else c.sp.scrub
  let s := s.setCore g { c with sp := { c.sp with track := t, scrub := scrub } }
  let s := s.logCorrected srcSpCe c.part (locSite g) (BitVec.ofNat 64 a) [dieOfSite g]
  if hit && (s.freeSpare g bank).isNone then
    s.logCorrected srcRowFull c.part (locSite g) (BitVec.ofNat 64 a) [dieOfSite g]
  else s

/-- Every correctable granule that a read of scratchpad bytes [a, a+n) meets is corrected. -/
def State.correctAll (s : State) (g a n port : Nat) : State :=
  (s.weakAt (spBase g + a) n 8).foldl (fun s q => s.corrected g (q - spBase g) port) s

/-- The first poisoned byte that a read of scratchpad bytes [a, a+n) meets. -/
def State.spPoison (s : State) (g a n : Nat) : Option Nat :=
  (s.poisonAt (spBase g + a) n 8).map (fun q => max a (q - spBase g))

/-- Value of scratchpad bytes [a, a+n). -/
def State.spVal (s : State) (g a n : Nat) : Nat := memRead s.mem (spBase g + a) n

/-- Write scratchpad bytes; a pending write-back of a granule written is cancelled (R192). -/
def State.spStore (s : State) (g a n v : Nat) : State :=
  let s := s.store (spBase g + a) n v 8
  let c := s.core g
  if c.sp.scrub.isEmpty then s
  else s.setCore g { c with sp := { c.sp with
    scrub := c.sp.scrub.filter (fun q => !(granules a n 8).contains q) } }

/-- Write scratchpad bytes from data that may be poisoned (R191). -/
def State.spStoreP (s : State) (g a n v : Nat) (p : Bool) : State :=
  if p then (s.spStore g a n v).poisonRange (spBase g + a) n 8 else s.spStore g a n v

/-- An uncorrectable read that faults nobody is counted and shown in SP_LASTERR: kind 1, or 3 where poison is copied
(R191, R211). -/
def State.tellUe (s : State) (g a kind port : Nat) : State :=
  let s := (s.addSat (corePage g) SP_STATUS_UE_TOTAL 1).setLastErr g kind a port (Config.syndrome s.free).toNat
  { s with free := s.free + 1 }

/-- A read of [a, a+n) that is not the owner's meets the granules in ascending order: one that is correctable is
corrected, one that is not is told (R191, R192, R204). -/
def State.readAll (s : State) (g a n kind port : Nat) : State :=
  (granules (spBase g + a) n 8).foldl (fun s q =>
    if s.poison.contains q then s.tellUe g (q - spBase g) kind port
    else if s.weak.contains q then s.corrected g (q - spBase g) port
    else s) s

def State.updSp (s : State) (g : Nat) (f : Sp → Sp) : State := s.updCore g (fun c => { c with sp := f c.sp })

/-- State of map entry e of a bank (R206). -/
def Sp.entry (x : Sp) (bank e : Nat) : MapEntry := x.maps.getD (64 * bank + e) ⟨0, 0⟩

/-- Scratchpad address of a logical row (R189). -/
def rowByte (bank lrow : Nat) : Nat := 262144 * bank + 256 * lrow

/-- The logical rows that MAPPED entries of a table name, as (bank, logical row). -/
def mappedRows (t : Tab MapEntry) : List (Nat × Nat) :=
  t.filterMap (fun e => if e.2.state == 1 then some (e.1 / 64, e.2.lrow) else none)

/-- A map table is replaced (R206): every logical row that comes to lie in another physical row meets the bytes that row
holds, and leaves its own in the row it lay in. -/
def State.setMaps (s : State) (g : Nat) (t : Tab MapEntry) : State :=
  let rows := (mappedRows (s.core g).sp.maps ++ mappedRows t).eraseDups
  let n := s.updSp g (fun x => { x with maps := t })
  let moved := (rows.map (fun r => (r, s.physRow g r.1 r.2, n.physRow g r.1 r.2))).filter (fun e => e.2.1 != e.2.2)
  let n := moved.foldl (fun s e => s.moveCells (spBase g + rowByte e.1.1 e.1.2) (shelf g e.1.1 e.2.1) 256) n
  moved.foldl (fun s e => s.moveCells (shelf g e.1.1 e.2.2) (spBase g + rowByte e.1.1 e.1.2) 256) n

/-- The map table of a site as the Almanac holds it (R207). -/
def State.almMaps (s : State) (g : Nat) : Tab MapEntry :=
  let lo := almKey almMap (2048 * g)
  let ks := ((s.alm.copy0.range lo (lo + 1536)).map (·.1) ++ (s.alm.copy1.range lo (lo + 1536)).map (·.1)).eraseDups
  ks.foldl (fun (t : Tab MapEntry) k =>
    let v := s.almVal k 0
    if v / 1024 == 0 then t else t.set (k - lo) ⟨v / 1024, v % 1024⟩) []

/-- Firmware loads the map tables of a site, at start-up and after a core reset (R207). -/
def State.loadMaps (s : State) (g : Nat) : State := s.setMaps g (s.almMaps g)

/-- Transactions of a core that await acknowledgement (R111, QUEUE_STATUS.UNACKED). -/
def State.unacked (s : State) (g : Nat) : Nat :=
  (s.fab.txs.filter (fun t => t.write && (match t.use with
    | .dma x _ => x == g
    | .edge x _ _ => x == g
    | .sig x _ _ => x == g
    | .fill _ => false))).length

/-- Of them those that RELEASE waits for: not those of a SIGNAL (R114). -/
def State.unackedWrites (s : State) (g : Nat) : Nat :=
  (s.fab.txs.filter (fun t => t.write && (match t.use with
    | .dma x _ => x == g
    | .edge x _ _ => x == g
    | .sig _ _ _ => false
    | .fill _ => false))).length

/-- DMA descriptors running: their counters have not advanced. -/
def Dma.running (d : Dma) : List DmaOp := d.ops.filter (fun o => !o.done)

/-- DMA descriptors queued or running (R130), with acknowledgements due not counted. -/
def Core.dmaQ (c : Core) : Nat := c.dma.q.length + c.dma.running.length

/-- The core is idle (R130). -/
def State.coreIdle (s : State) (g : Nat) : Bool :=
  let c := s.core g
  (c.seq == .idle || c.seq == .halted || c.seq == .faulted)
    && c.mac.q.isEmpty && c.mac.runs.isEmpty && c.vec.q.isEmpty && c.edge.q.isEmpty && c.edge.ops.isEmpty
    && c.dma.q.isEmpty && c.dma.running.isEmpty && s.unacked g == 0

/-- Empty every queue and abandon every operation of a core (R125, R131): engine queues, runs, halo work,
the Finder's work, and what the DMA agent and the edge engine have in hand. -/
def Core.discard (c : Core) : Core :=
  { c with
    mac := { c.mac with q := [], runs := [], halo := [], finder := [], backlog := 0 }
    vec := { c.vec with q := [] }
    edge := { c.edge with q := [], ops := [], rows := [] }
    dma := { c.dma with q := [], ops := [] }
    arrived := false, copied := false, stall := none }

/-- The fault record of R126. -/
def faultRec (kind engine pc : Nat) (h : W32) (insn addr : W64) (opid : W32) (desc g : Nat) : Quad :=
  ⟨BitVec.ofNat 64 (kind * 2 ^ 56 + engine * 2 ^ 52 + pc % 2 ^ 20 * 2 ^ 32 + h.toNat), insn, addr,
   BitVec.ofNat 64 (opid.toNat * 2 ^ 32 + desc % 2 ^ 18 * 2 ^ 14 + g % 2 ^ 13)⟩

/-- FAULT_REC0–FAULT_REC3 and SEQ_STATUS.FAULT. -/
def State.setFaultRec (s : State) (g : Nat) (r : Quad) : State :=
  let bp := corePage g
  ((((s.setFld bp (FAULT_REC_W 0) r.w0.toNat).setFld bp (FAULT_REC_W 1) r.w1.toNat).setFld bp
    (FAULT_REC_W 2) r.w2.toNat).setFld bp (FAULT_REC_W 3) r.w3.toNat).setFld bp SEQ_STATUS_FAULT 1

def State.clearFaultRec (s : State) (g : Nat) : State :=
  let bp := corePage g
  ((((s.setFld bp (FAULT_REC_W 0) 0).setFld bp (FAULT_REC_W 1) 0).setFld bp
    (FAULT_REC_W 2) 0).setFld bp (FAULT_REC_W 3) 0).setFld bp SEQ_STATUS_FAULT 0

/-- A second ARITH at one site, or a second SP_UE in one physical row of a site, within 24 h makes the site
hard-failed (R383, R397). -/
def State.countFault (s : State) (g src a : Nat) : State :=
  if src == srcArith then
    if s.err.arith.any (fun e => e.1 == g) then s.siteLost g
    else { s with err := { s.err with arith := s.err.arith ++ [(g, 0)] } }
  else if src == srcSpUe then
    let row := 2048 * bankOf a + s.physRow g (bankOf a) (rowOf a)
    if s.err.spUe.any (fun e => e.1 == g && e.2.1 == row) then s.siteLost g
    else { s with err := { s.err with spUe := s.err.spUe ++ [(g, row, 0)] } }
  else s

/-- A fault of a core (R125–R127). On a core in RUN, WAIT or FROZEN the queues are discarded, the record is
written, the state becomes FAULTED and firmware is told; on a FAULTED core it counts in FAULTS_LOST; on an
IDLE or HALTED core nothing can fault. -/
def State.coreFault (s : State) (g kind engine pc : Nat) (insn addr : W64) (opid : W32) (desc : Nat) : State :=
  let c := s.core g
  match c.seq with
  | .idle => s
  | .halted => s
  | .faulted => s.addSat (corePage g) SEQ_STATUS_FAULTS_LOST 1
  | _ =>
    let r := faultRec kind engine pc c.handle insn addr opid desc g
    let s := s.setCore g { c.discard with seq := .faulted }
    let s := s.setFaultRec g r
    let src := fkSource kind
    let s := s.addScore (dieOfSite g) (scoreWeight src)
    let s := s.raiseErr ⟨src, 0, c.part, c.handle, g, dieOfSite g, blockOf (dieOfSite g), addr, r, false, s.ms,
      locSite g⟩
    s.countFault g src (addr.toNat % 2 ^ 23)

/-- A sequencer fault at the current PC. -/
def State.seqFault (s : State) (g kind : Nat) (insn addr : W64) : State :=
  s.coreFault g kind engSeq (s.core g).pc insn addr 0#32 0

/-- An uncorrectable read of the owning core faults it (R191): counted, with SP_LASTERR. -/
def State.spUe (s : State) (g a port engine pc : Nat) (insn : W64) (opid : W32) (desc : Nat) : State :=
  let s := s.addSat (corePage g) SP_STATUS_UE_TOTAL 1
  let s := s.setLastErr g 1 a port (Config.syndrome s.free).toNat
  let s := { s with free := s.free + 1 }
  s.coreFault g fkScratchUe engine pc insn (BitVec.ofNat 64 a) opid desc

/-- Add 1 to completion counter k of site g (R104). At 65,535 it stays: a core in RUN, WAIT or FROZEN
faults KOVF with the source of the increment, and on any other core nothing happens (R127). -/
def State.kInc (s : State) (g k engine pc : Nat) (insn : W64) (opid : W32) (desc : Nat) : State :=
  let c := s.core g
  let v := c.k.getD k 0#16
  if v == 0xFFFF#16 then
    if c.seq == .faulted then s else s.coreFault g fkKovf engine pc insn 0#64 opid desc
  else s.setCore g { c with k := c.k.set k (v + 1#16) }

/-- The number of a sequencer state (R121). -/
def SeqState.code : SeqState → Nat
  | .idle => 0
  | .run => 1
  | .wait => 2
  | .frozen => 3
  | .halted => 4
  | .faulted => 5

/-- WAIT_REASON (R130). -/
def Stall.reason : Stall → Nat
  | .counter _ _ => 1
  | .queueFull _ _ => 2
  | .fence _ | .haltFence | .epochFence | .release _ | .finder => 3
  | .epochCommit => 4

def Stall.waitK : Stall → Nat
  | .counter k _ => k
  | _ => 0

/-- The window set a site uses (R216). -/
def State.winSet (s : State) (g : Nat) : Nat :=
  bits (s.reg (spinePage (dieOfSite g) + 0xF000) 0) (2 * (g % 16) + 1) (2 * (g % 16))

/-- NCORES of the site's window set, which CORE_ID shows (R130, R216). -/
def State.nCores (s : State) (g : Nat) : Nat :=
  s.fld (spinePage (dieOfSite g)) (WIN_HDR_NCORES (s.winSet g))

/-- The partition identifier that packets of site g carry: the PART of its window set (R216). -/
def State.winPart (s : State) (g : Nat) : Nat :=
  s.fld (spinePage (dieOfSite g)) (WIN_HDR_PART (s.winSet g))

/-- A general register; c0 reads as zero (R93). -/
def Core.reg (c : Core) (i : Nat) : W64 := if i = 0 then 0#64 else c.c.getD i 0#64

/-- Write a general register; a write to c0 is discarded (R93). -/
def Core.setC (c : Core) (i : Nat) (v : W64) : Core := if i = 0 then c else { c with c := c.c.set i v }

/-- A completion counter. -/
def Core.kVal (c : Core) (i : Nat) : BitVec 16 := c.k.getD i 0#16

end Sys2Proof.Machine
end

