-- ==== Sys2Proof/Machine/VecQueue.lean ====
section
/-! DEFINITION. The fields of a vector instruction (R136), the two pipes of the vector engine (R157) and when an
instruction may start (R158). -/

namespace Sys2Proof.Machine

/-- Fields of a vector instruction (R136). -/
def vOp (w : W64) : Nat := bits w 63 56
def vTD (w : W64) : Nat := bits w 55 51
def vTA (w : W64) : Nat := bits w 50 46
def vTB (w : W64) : Nat := bits w 45 41
def vTC (w : W64) : Nat := bits w 40 36
def vTy (w : W64) : Nat := bits w 35 32
def vMK (w : W64) : Nat := bits w 31 29
def vMEN (w : W64) : Bool := bit w 28
def vSCAL (w : W64) : Bool := bit w 27
def vKEN (w : W64) : Bool := bit w 26
def vKC (w : W64) : Nat := bits w 25 22
def vREP (w : W64) : Nat := bits w 21 18
def vIMM (w : W64) : Nat := bits w 17 0
def vOff (w : W64) : Int := sgn (vIMM w) 18

/-- An opcode of the memory pipe (R157); all others belong to the compute pipe. -/
def vecMemOp (w : W64) : Bool := vOp w < 0xC7

/-- The registers that order instructions (R158), numbered: tiles 0–31, masks 32–39, the carry register 40, chain slots
48–55. -/
def vrTiles (i n : Nat) : List Nat := (List.range n).map (fun k => i + k)
def vrMask (i : Nat) : Nat := 32 + i % 8
def vrCarry : Nat := 40
def vrChain (i : Nat) : Nat := 48 + i % 8

/-- The registers an instruction reads (R137, R139, R145, R147, R156). -/
def vecReads (w : W64) : List Nat :=
  let n := vREP w + 1
  let a := vrTiles (vTA w) n
  let b := vrTiles (vTB w) (if vSCAL w then 1 else n)
  let i := vIMM w
  let m := [vrMask (vMK w)]
  let op := vOp w
  (if vMEN w then m else []) ++
  (if op == 0xC2 || op == 0xC3 then b
   else if op == 0xC5 then [vrMask (vTB w)]
   else if op < 0xC7 || op == 0xE3 || 0xEE ≤ op then []
   else if op == 0xCB then a ++ b ++ vrTiles (vTC w) n
   else if op == 0xDA then a ++ b ++ m
   else if op == 0xE2 then (if i < 5 then [vrMask (vTA w)] else []) ++ (if i < 4 then [vrMask (vTB w)] else [])
   else if op == 0xE6 || op == 0xE7 then a ++ m ++ (if i / 2 % 2 == 1 then [vrCarry] else [])
   else if op == 0xE8 then a ++ (if i / 4 % 2 == 1 then b else [])
   else if op == 0xE9 then a ++ m
   else if op == 0xEC then [vTA w, vTB w]
   else if op == 0xED then [vTA w, vTB w, vTC w, vrChain (i / 1024)] ++ (if i / 8192 % 2 == 1 then [i % 32] else [])
   else if (0xC8 ≤ op && op ≤ 0xCE) || op == 0xD9 || (0xDB ≤ op && op ≤ 0xE1 && op != 0xDE) then a ++ b
   else a)

/-- The registers an instruction writes. -/
def vecWrites (w : W64) : List Nat :=
  let n := vREP w + 1
  let d := vrTiles (vTD w) n
  let i := vIMM w
  let op := vOp w
  if op == 0xC2 || op == 0xC3 || op == 0xC5 || 0xEE ≤ op then []
  else if op == 0xC4 || op == 0xD9 || op == 0xE2 then [vrMask (vTD w)]
  else if op == 0xC6 then [vrChain (vTD w)]
  else if op == 0xE6 || op == 0xE7 then d ++ (if i % 2 == 1 then [vrCarry] else [])
  else if op == 0xE8 then d ++ (if i / 4 % 2 == 1 then vrTiles (vTC w) n else [])
  else if op == 0xEB then [vTD w, i / 64 % 32]
  else if op == 0xED then vTD w :: (if i / 16384 % 2 == 1 then [i / 32 % 32] else [])
  else d

/-- An instruction waits for an earlier one that writes a register it reads or writes, or reads a register it writes. -/
def vecWaitsFor (w earlier : W64) : Bool :=
  (vecWrites earlier).any (fun r => (vecReads w).contains r || (vecWrites w).contains r)
    || (vecReads earlier).any (fun r => (vecWrites w).contains r)

/-- The instruction has finished: all its repeats have. -/
def VEntry.done (e : VEntry) : Bool := vREP e.w < e.reps

/-- Entry i of the queue may start, or go on with its next repeat (R157, R158): it is the first of its pipe that has not
finished, and waits for no earlier instruction; VMARK finishes once every earlier one has. -/
def Vec.mayStart (v : Vec) (i : Nat) : Bool :=
  match v.q[i]? with
  | none => false
  | some e =>
    let before := (v.q.take i).filter (fun x => !x.done)
    !e.done && before.all (fun x => vecMemOp x.w != vecMemOp e.w && !vecWaitsFor e.w x.w) && (vOp e.w != 0xEE || before.isEmpty)

/-- A pipe works: an instruction of it has started or starts (R160). -/
def Vec.pipeBusy (v : Vec) (mem : Bool) : Bool :=
  (List.range v.q.length).any (fun i => v.mayStart i && ((v.q[i]?).map (fun e => vecMemOp e.w)) == some mem)

/-- Entries that take a place of the queue: those that have not finished (R102). -/
def Vec.pending (v : Vec) : Nat := (v.q.filter (fun e => !e.done)).length

end Sys2Proof.Machine
end

