-- ==== Sys2Proof/Machine/Flags.lean ====
section
/-! DEFINITION. Writes to registers by field: access codes (R9), classes (R10, R11, R13), the sticky
CFG_LOCKED_WR bits (R12, R130), firmware-only fields (R129); the registers of every page, found by their offset;
and the status fields and flags that are computed from the state when a page is read. -/

namespace Sys2Proof.Machine

/-- A row of a page's register list: first offset, stride, count, and the register by its index. -/
structure RegRow where
  base : Nat
  stride : Nat
  count : Nat
  d : Nat → RegDef

def coreRegs : List RegRow :=
  [
  ⟨0x000, 8, 1, fun _ => MAC_STATUS⟩,
  ⟨0x008, 8, 1, fun _ => MAC_CFG⟩,
  ⟨0x010, 8, 1, fun _ => MAC_SEED⟩,
  ⟨0x018, 8, 1, fun _ => MAC_BUSY_CYCLES⟩,
  ⟨0x020, 8, 1, fun _ => MAC_HALO_STALL⟩,
  ⟨0x100, 8, 1, fun _ => RES_COUNT⟩,
  ⟨0x108, 8, 1, fun _ => RES_LAST⟩,
  ⟨0x120, 8, 1, fun _ => FINDER_CFG⟩,
  ⟨0x128, 8, 1, fun _ => FINDER_SEED⟩,
  ⟨0x130, 8, 1, fun _ => FINDER_STATUS⟩,
  ⟨0x138, 8, 1, fun _ => FINDER_SAMPLES⟩,
  ⟨0x140, 8, 1, fun _ => FINDER_STALL⟩,
  ⟨0x148, 8, 1, fun _ => FINDER_LAST⟩,
  ⟨0x150, 8, 1, fun _ => INJECT⟩,
  ⟨0x160, 8, 1, fun _ => PW_CFG⟩,
  ⟨0x168, 8, 1, fun _ => PW_FIFO⟩,
  ⟨0x170, 8, 4, fun i => PW_REC i⟩,
  ⟨0x190, 8, 1, fun _ => PW_POP⟩,
  ⟨0x1A0, 8, 7, fun i => PW_TOTAL i⟩,
  ⟨0x1D8, 8, 1, fun _ => PW_ACTIONS⟩]
  ++ [
  ⟨0x200, 0x40, 8, fun i => TSET_W0 i⟩,
  ⟨0x208, 0x40, 8, fun i => TSET_W1 i⟩,
  ⟨0x210, 0x40, 8, fun i => TSET_W2 i⟩,
  ⟨0x218, 0x40, 8, fun i => TSET_W3 i⟩,
  ⟨0x220, 0x40, 8, fun i => TSET_W4 i⟩,
  ⟨0x400, 8, 1, fun _ => SEQ_STATUS⟩,
  ⟨0x408, 8, 1, fun _ => SEQ_CTRL⟩,
  ⟨0x410, 8, 1, fun _ => SEQ_CFG⟩,
  ⟨0x418, 8, 1, fun _ => CORE_ID⟩,
  ⟨0x420, 8, 1, fun _ => EPOCH_REG⟩,
  ⟨0x428, 8, 1, fun _ => CYCLES⟩,
  ⟨0x430, 8, 1, fun _ => RETIRED⟩,
  ⟨0x438, 8, 1, fun _ => QUEUE_STATUS⟩,
  ⟨0x440, 8, 1, fun _ => SEQ_THROTTLE⟩,
  ⟨0x448, 8, 4, fun i => KCNT i⟩,
  ⟨0x468, 8, 4, fun i => FAULT_REC i⟩,
  ⟨0x488, 8, 8, fun i => LIVE i⟩,
  ⟨0x4C8, 8, 1, fun _ => CREG_SEL⟩,
  ⟨0x4D0, 8, 1, fun _ => CREG_DATA⟩,
  ⟨0x4D8, 8, 1, fun _ => RESTORE_PC⟩]
  ++ [
  ⟨0x4E0, 8, 1, fun _ => RESTORE_EPOCH⟩,
  ⟨0x500, 8, 1, fun _ => VEC_STATUS⟩,
  ⟨0x508, 8, 1, fun _ => VEC_CFG⟩,
  ⟨0x510, 8, 1, fun _ => VEC_SEED⟩,
  ⟨0x518, 8, 8, fun i => VADDR i⟩,
  ⟨0x558, 8, 1, fun _ => VEC_BUSY_CYCLES⟩,
  ⟨0x600, 8, 1, fun _ => EDGE_STATUS⟩,
  ⟨0x608, 8, 1, fun _ => EDGE_CFG⟩,
  ⟨0x610, 8, 1, fun _ => EDGE_SEED⟩,
  ⟨0x618, 8, 1, fun _ => EDGE_SMAP⟩,
  ⟨0x620, 8, 1, fun _ => EDGE_EVENTS⟩,
  ⟨0x628, 8, 1, fun _ => EDGE_ROWS⟩,
  ⟨0x630, 8, 1, fun _ => EDGE_BUSY_CYCLES⟩,
  ⟨0x700, 8, 24, fun i => SP_BANK i⟩,
  ⟨0x7C0, 8, 1, fun _ => SP_STATUS⟩,
  ⟨0x7C8, 8, 1, fun _ => SP_CFG⟩,
  ⟨0x7D0, 8, 1, fun _ => SURVEY_CFG⟩,
  ⟨0x7D8, 8, 1, fun _ => SURVEY_STATUS⟩,
  ⟨0x7E0, 8, 1, fun _ => SP_LASTERR⟩,
  ⟨0x7E8, 8, 1, fun _ => SP_MAP⟩]
  ++ [
  ⟨0x7F0, 8, 1, fun _ => SP_MIGRATE⟩,
  ⟨0x7F8, 8, 1, fun _ => SP_CTRL⟩]

def spineRegs : List RegRow :=
  [
  ⟨0x10000, 0x8000, 4, fun i => WIN_HDR i⟩,
  ⟨0xF000, 8, 1, fun _ => WIN_SEL⟩,
  ⟨0xF100, 8, 1, fun _ => NET_CFG⟩,
  ⟨0xF108, 8, 1, fun _ => NET_STATUS⟩,
  ⟨0xF110, 8, 1, fun _ => MC_HOLES⟩,
  ⟨0xF200, 8, 3, fun i => PM_ENERGY i⟩,
  ⟨0xF220, 8, 16, fun i => PM_ACTIVE i⟩,
  ⟨0xF300, 8, 1, fun _ => CLK_STATUS⟩,
  ⟨0xF308, 8, 1, fun _ => CLK_CFG⟩,
  ⟨0xF310, 8, 1, fun _ => AON_COUNT⟩,
  ⟨0xF318, 8, 1, fun _ => CLK_DROOP⟩,
  ⟨0xF320, 8, 1, fun _ => ROW_V⟩,
  ⟨0xF400, 8, 1, fun _ => TH_READ⟩,
  ⟨0xF408, 8, 1, fun _ => TH_STATUS⟩,
  ⟨0xF410, 8, 1, fun _ => TH_CFG⟩]

def chkRegs : List RegRow :=
  [
  ⟨0x000, 8, 1, fun _ => CHK_CFG⟩,
  ⟨0x008, 8, 1, fun _ => CHK_ADDR⟩,
  ⟨0x010, 8, 1, fun _ => CHK_LEN⟩,
  ⟨0x018, 8, 1, fun _ => CHK_STATUS⟩,
  ⟨0x020, 8, 1, fun _ => CHK_RESULT⟩,
  ⟨0x028, 8, 1, fun _ => CHK_CTRL⟩,
  ⟨0x100, 8, 16, fun i => CHK_CTX i⟩]

def cacheRegs : List RegRow :=
  [
  ⟨0x000, 8, 1, fun _ => CACHE_CMD⟩,
  ⟨0x008, 8, 1, fun _ => CACHE_STATUS⟩,
  ⟨0x010, 8, 1, fun _ => CACHE_COUNTS⟩]

def routerRegs : List RegRow :=
  [
  ⟨0x0000, 8, 1, fun _ => RT_STATUS⟩,
  ⟨0x0008, 8, 1, fun _ => RT_CFG⟩,
  ⟨0x0040, 8, 4, fun i => LINK_STATUS i⟩,
  ⟨0x0060, 8, 4, fun i => LINK_CFG i⟩,
  ⟨0x0080, 8, 7, fun i => RT_COUNT i⟩]

def baseRegs : List RegRow :=
  [
  ⟨0x80000, 8, 128, fun i => TRAFFIC i⟩]

def photonicRegs : List RegRow :=
  [
  ⟨0x0000, 8, 1, fun _ => PH_STATUS⟩,
  ⟨0x0008, 8, 1, fun _ => PH_CFG⟩,
  ⟨0x0100, 8, 32, fun i => PH_PAIR i⟩]

def domeRegs : List RegRow :=
  [
  ⟨0x4000, 8, 1, fun _ => FREQ_STATUS⟩,
  ⟨0x5000, 8, 8, fun i => PCL_STATUS i⟩,
  ⟨0x6000, 8, 1, fun _ => TH_PANEL⟩,
  ⟨0x7000, 8, 1, fun _ => ERR_STATUS⟩,
  ⟨0x7008, 8, 1, fun _ => ERR_CFG⟩,
  ⟨0x7010, 8, 1, fun _ => EXPEL_STATUS⟩,
  ⟨0x9000, 8, 1, fun _ => BOOT_STATUS⟩,
  ⟨0xB000, 8, 1, fun _ => FAC_STATUS⟩,
  ⟨0xB008, 8, 2, fun i => FAC_CH i⟩,
  ⟨0xB018, 8, 1, fun _ => FAC_VALUES⟩]

def barRegs : List RegRow :=
  [
  ⟨0x0040, 8, 1, fun _ => FUNC_STATUS⟩,
  ⟨0x0048, 8, 1, fun _ => FUNC_CTRL⟩,
  ⟨0x0080, 8, 1, fun _ => OFFERED⟩,
  ⟨0x0100, 0x10, 8, fun i => SQ_BASE i⟩,
  ⟨0x0108, 0x10, 8, fun i => SQ_CFG i⟩,
  ⟨0x0180, 8, 1, fun _ => RQ_BASE⟩,
  ⟨0x0188, 8, 1, fun _ => RQ_CFG⟩,
  ⟨0x0190, 8, 1, fun _ => CQ_BASE⟩,
  ⟨0x0198, 8, 1, fun _ => CQ_CFG⟩,
  ⟨0x01A0, 8, 1, fun _ => LOG_BASE⟩,
  ⟨0x01A8, 8, 1, fun _ => LOG_CFG⟩,
  ⟨0x1000, 8, 8, fun i => SQ_TAIL i⟩,
  ⟨0x1040, 8, 1, fun _ => RQ_HEAD⟩,
  ⟨0x1048, 8, 1, fun _ => CQ_HEAD⟩,
  ⟨0x1050, 8, 1, fun _ => LOG_HEAD⟩]


/-- A word of four 16-bit table entries, each with the same fields (R216). -/
def quadWord (off : Nat) (fs : List FieldDef) : RegDef :=
  ⟨off, (List.range 4).flatMap (fun j => fs.map (fun f => { f with hi := f.hi + 16 * j, lo := f.lo + 16 * j }))⟩

/-- HBM unit map words, core map words, slot maps, injection shares and route-table words (R216, R275). -/
def winUnitWord (w i : Nat) : RegDef :=
  quadWord (0x10400 + 0x8000 * w + 8 * i) [⟨15, 15, .rw, .staged, 0, true⟩, ⟨11, 0, .rw, .staged, 0, true⟩]
def winCoreWord (w i : Nat) : RegDef :=
  quadWord (0x12000 + 0x8000 * w + 8 * i)
    [⟨15, 15, .rw, .staged, 0, true⟩, ⟨12, 4, .rw, .staged, 0, true⟩, ⟨3, 0, .rw, .staged, 0, true⟩]
def slotMapWord (i : Nat) : RegDef :=
  ⟨0xF008 + 8 * i, (List.range (if i = 0 then 8 else 6)).flatMap (fun j =>
    [⟨8 * j + 7, 8 * j + 7, .rw, .live, 0, true⟩, ⟨8 * j + 3, 8 * j, .rw, .live, 0, true⟩])⟩
def injShareWord (i : Nat) : RegDef :=
  ⟨0x100 + 8 * i, (List.range 8).map (fun j => ⟨8 * j + 7, 8 * j, .rw, .staged, 0x10, true⟩)⟩
def rtWord (k i : Nat) : RegDef :=
  quadWord (0x1000 + 0x400 * k + 8 * i)
    [⟨15, 12, .rw, .locked, 0, true⟩, ⟨11, 11, .rw, .locked, 0, true⟩, ⟨10, 8, .rw, .locked, 7, true⟩,
     ⟨7, 5, .rw, .locked, 7, true⟩, ⟨4, 4, .rw, .locked, 1, true⟩]

def spineTables : List RegRow :=
  [⟨0x10400, 8, 768, winUnitWord 0⟩, ⟨0x18400, 8, 768, winUnitWord 1⟩, ⟨0x20400, 8, 768, winUnitWord 2⟩,
   ⟨0x28400, 8, 768, winUnitWord 3⟩, ⟨0x12000, 8, 1232, winCoreWord 0⟩, ⟨0x1A000, 8, 1232, winCoreWord 1⟩,
   ⟨0x22000, 8, 1232, winCoreWord 2⟩, ⟨0x2A000, 8, 1232, winCoreWord 3⟩, ⟨0xF008, 8, 2, slotMapWord⟩]

def routerTables : List RegRow :=
  [⟨0x100, 8, 8, injShareWord⟩, ⟨0x1000, 8, 96, rtWord 0⟩, ⟨0x1400, 8, 96, rtWord 1⟩]

/-- Read-only words of packed codes and scores, and the MSI-X structures (R282, R358, R419, R420). -/
def roWord (off rst : Nat) : RegDef := ⟨off, [⟨63, 0, .ro, .live, rst, true⟩]⟩
def domeTables : List RegRow :=
  [⟨0x4008, 8, 5, fun i => roWord (0x4008 + 8 * i) 0x2020202020202020⟩,
   ⟨0x8000, 8, 96, fun i => roWord (0x8000 + 8 * i) 0⟩, ⟨0x8300, 8, 24, fun i => roWord (0x8300 + 8 * i) 0⟩,
   ⟨0x8400, 8, 8, fun i => roWord (0x8400 + 8 * i) 0⟩]
def barTables : List RegRow :=
  [⟨0x0000, 8, 8, fun i => roWord (8 * i) 0⟩, ⟨0x2000, 16, 2, fun i => ⟨0x2000 + 16 * i, [⟨63, 0, .rw, .live, 0, false⟩]⟩⟩,
   ⟨0x2008, 16, 2, fun i => ⟨0x2008 + 16 * i, [⟨63, 0, .rw, .live, 0x100000000, false⟩]⟩⟩,
   ⟨0x2800, 8, 1, fun _ => roWord 0x2800 0⟩]

/-- The register at an offset of a list. -/
def findReg (l : List RegRow) (off : Nat) : Option RegDef :=
  (l.find? (fun r => r.base ≤ off && off < r.base + r.stride * r.count && (off - r.base) % r.stride == 0)).map
    (fun r => r.d ((off - r.base) / r.stride))

/-- The same register seen at another base of its page. -/
def RegDef.shift (r : RegDef) (k : Nat) : RegDef := { r with off := r.off + k }

/-- The register at an address: routers and check units repeat in a page (R275, R471). -/
def RegAddr.find : RegAddr → Option RegDef
  | .core _ o => findReg coreRegs o
  | .spine _ o =>
    if 0xF500 ≤ o && o < 0xF700 then (findReg chkRegs (o - 0xF500)).map (RegDef.shift · 0xF500)
    else findReg (spineRegs ++ spineTables) o
  | .base _ o =>
    if o < 0x80000 then (findReg (routerRegs ++ routerTables) (o % 0x20000)).map (RegDef.shift · (o / 0x20000 * 0x20000))
    else findReg baseRegs o
  | .slicectl _ _ => none
  | .photonic _ o => findReg photonicRegs o
  | .dome i o =>
    if i == 4 || i == 5 then
      if 0xA000 ≤ o && o < 0xA800 then
        (findReg chkRegs ((o - 0xA000) % 0x400)).map (RegDef.shift · (0xA000 + (o - 0xA000) / 0x400 * 0x400))
      else findReg (domeRegs ++ domeTables) o
    else none
  | .cache _ o => findReg cacheRegs o
  | .bar _ _ o => findReg (barRegs ++ barTables) o

/-- What one write does to a register word: the word in effect, the staged bits, and whether a Locked field
was dropped (R9–R13). `fw`: the writer may write firmware-only fields; `idle`: the owning unit is idle. -/
structure Wr where
  w : W64
  mask : Nat
  dropped : Bool

def writeField (fw idle : Bool) (v : W64) (a : Wr) (f : FieldDef) : Wr :=
  let nv := bits v f.hi f.lo
  let cv := bits a.w f.hi f.lo
  if f.fw && !fw then a
  else match f.acc with
  | .rsv | .ro | .wo => a
  | .w1c => { a with w := setBits a.w f.hi f.lo (cv - Nat.land cv nv) }
  | .w1s => { a with w := setBits a.w f.hi f.lo (Nat.lor cv nv) }
  | .rw => match f.cls with
    | .live => { a with w := setBits a.w f.hi f.lo nv }
    | .staged => { a with mask := a.mask + fieldMask f.hi f.lo }
    | .locked =>
      if idle then { a with w := setBits a.w f.hi f.lo nv }
      else if nv == cv then a else { a with dropped := true }

def writeWord (fw idle : Bool) (d : RegDef) (cur v : W64) : Wr :=
  d.fields.foldl (writeField fw idle v) ⟨cur, 0, false⟩

/-- Write a register of a page by the classes of its fields; says whether a Locked field was dropped. -/
def State.writeReg (s : State) (page : Nat) (d : RegDef) (v : W64) (fw idle : Bool) : State × Bool :=
  let k := page + d.off
  let r := writeWord fw idle d (s.reg k d.reset) v
  let s := s.setReg k r.w
  if r.mask == 0 then (s, r.dropped)
  else
    let m := BitVec.ofNat 64 r.mask
    let o := s.shadow.getD k (0#64, 0#64)
    ({ s with shadow := s.shadow.set k (o.1 ||| m, (o.2 &&& ~~~m) ||| (v &&& m)) }, r.dropped)

/-- A boundary of the unit whose registers lie from lo up to hi: pending Staged fields take effect (R10). -/
def State.applyStaged (s : State) (lo hi : Nat) : State :=
  let l := s.shadow.range lo hi
  let s := l.foldl (fun s e =>
    s.setReg e.1 ((s.reg e.1 0 &&& ~~~e.2.1) ||| (e.2.2 &&& e.2.1))) s
  { s with shadow := s.shadow.eraseRange lo hi }

/-- The unit bit that records a dropped Locked write of the core's page (R130): MAC_STATUS, VEC_STATUS,
EDGE_STATUS or SP_STATUS; sequencer fields have SEQ_STATUS alone. -/
def unitLockedBit (off : Nat) : Option Fld :=
  if off < 0x100 then some MAC_STATUS_CFG_LOCKED_WR
  else if 0x500 ≤ off && off < 0x600 then some VEC_STATUS_CFG_LOCKED_WR
  else if 0x600 ≤ off && off < 0x700 then some EDGE_STATUS_CFG_LOCKED_WR
  else if 0x700 ≤ off && off < 0x800 then some SP_STATUS_CFG_LOCKED_WR
  else none

/-- Record a dropped Locked write of the core's page (R130). -/
def State.lockedDrop (s : State) (g off : Nat) : State :=
  let s := s.setFld (corePage g) SEQ_STATUS_CFG_LOCKED_WR 1
  match unitLockedBit off with
  | some F => s.setFld (corePage g) F 1
  | none => s

/-- Clear every CFG_LOCKED_WR bit of the core's page (R301, R306). -/
def State.clearLocked (s : State) (g : Nat) : State :=
  let bp := corePage g
  ((((s.setFld bp SEQ_STATUS_CFG_LOCKED_WR 0).setFld bp MAC_STATUS_CFG_LOCKED_WR 0).setFld bp
    VEC_STATUS_CFG_LOCKED_WR 0).setFld bp EDGE_STATUS_CFG_LOCKED_WR 0).setFld bp SP_STATUS_CFG_LOCKED_WR 0

/-- Some CFG_LOCKED_WR bit of the core's page is set: that of SEQ_STATUS or of a unit (R130, R306). -/
def State.anyLocked (s : State) (g : Nat) : Bool :=
  [SEQ_STATUS_CFG_LOCKED_WR, MAC_STATUS_CFG_LOCKED_WR, VEC_STATUS_CFG_LOCKED_WR, EDGE_STATUS_CFG_LOCKED_WR,
    SP_STATUS_CFG_LOCKED_WR].any (fun F => s.flag (corePage g) F)

/-- The MAC array is working (R63). -/
def Mac.busy (m : Mac) : Bool := !m.q.isEmpty || !m.runs.isEmpty || !m.halo.isEmpty

def Vec.busy (v : Vec) : Bool := !v.q.isEmpty

def Edge.busy (e : Edge) : Bool := !e.q.isEmpty || !e.ops.isEmpty

/-- Cycles of queued Finder work that BACKLOG shows (R76, R80, R91), with a begun cycle counted whole. -/
def Mac.finderCycles (m : Mac) : Nat := (m.backlog + 1023) / 1024

/-- Row requests outstanding of site g's edge engine, of one operation or of all (R176): rows with an open
transaction or a cacheable read that waits for a fill. -/
def State.rowsOut (s : State) (g : Nat) (op : Option Nat) : Nat :=
  let row : TxUse → Option (Nat × Nat) := fun u => match u with
    | .edge x o r => if x == g && (op.isNone || op == some o) then some (o, r) else none
    | _ => none
  ((s.fab.txs.filterMap (fun t => row t.use))
    ++ s.fab.fills.flatMap (fun f => f.waiters.filterMap (fun w => row w.use))).eraseDups.length

/-- Arithmetic-clock cycles of the core row that site g lies in, since power-up (R128, R340). -/
def State.rowCyclesOf (s : State) (g : Nat) : Nat := s.power.rowCycles.getD (2 * dieOfSite g + g % 16 / 8) 0

/-- The value a register of a core's page shows: the word in effect with its computed fields (R9, R63, R90,
R130, R131, R160, R188, R206, R211). -/
def State.coreView (s : State) (g off : Nat) : W64 :=
  match findReg coreRegs off with
  | none => 0#64
  | some d =>
    let w := s.reg (corePage g + off) d.reset
    let c := s.core g
    match off with
    | 0x000 => setBits (setBits (setBits (setBits w 15 8 c.mac.q.length) 2 2 (b2n c.mac.wbuf1.isSome)) 1 1
        (b2n c.mac.wbuf0.isSome)) 0 0 (b2n c.mac.busy)
    | 0x130 =>
      let p := s.fld (corePage g) FINDER_CFG_PROBATION
      setBits (setBits (setBits w 31 16 (min 0xFFFF c.mac.finderCycles)) 1 1 p) 0 0
        (b2n (!c.mac.finder.isEmpty || 0 < c.mac.backlog))
    | 0x168 => setBits w 4 0 c.mac.pw.length
    | 0x170 => (c.mac.pw.head?.map (·.w0)).getD 0#64
    | 0x178 => (c.mac.pw.head?.map (·.w1)).getD 0#64
    | 0x180 => (c.mac.pw.head?.map (·.w2)).getD 0#64
    | 0x188 => (c.mac.pw.head?.map (·.w3)).getD 0#64
    | 0x400 =>
      let w := setBits (setBits w 63 44 c.pc) 43 40 c.seq.code
      let w := setBits (setBits w 39 36 ((c.stall.map Stall.reason).getD 0)) 35 32 ((c.stall.map Stall.waitK).getD 0)
      setBits w 0 0 (b2n (!s.coreIdle g))
    | 0x418 => BitVec.ofNat 64 (c.lcore * 2 ^ 48 + (if c.part == 127 then 0 else s.nCores g) * 2 ^ 32
        + c.part * 2 ^ 25 + g)
    | 0x428 => BitVec.ofNat 64 (s.rowCyclesOf g) - w
    | 0x438 => BitVec.ofNat 64 (min 0xFFFF (s.unacked g) * 2 ^ 48 + c.vec.q.length * 2 ^ 40
        + c.edge.q.length * 2 ^ 32 + c.dmaQ * 2 ^ 24)
    | 0x448 => BitVec.ofNat 64 ((c.kVal 3).toNat * 2 ^ 48 + (c.kVal 2).toNat * 2 ^ 32 + (c.kVal 1).toNat * 2 ^ 16 + (c.kVal 0).toNat)
    | 0x450 => BitVec.ofNat 64 ((c.kVal 7).toNat * 2 ^ 48 + (c.kVal 6).toNat * 2 ^ 32 + (c.kVal 5).toNat * 2 ^ 16 + (c.kVal 4).toNat)
    | 0x458 => BitVec.ofNat 64 ((c.kVal 11).toNat * 2 ^ 48 + (c.kVal 10).toNat * 2 ^ 32 + (c.kVal 9).toNat * 2 ^ 16 + (c.kVal 8).toNat)
    | 0x460 => BitVec.ofNat 64 ((c.kVal 15).toNat * 2 ^ 48 + (c.kVal 14).toNat * 2 ^ 32 + (c.kVal 13).toNat * 2 ^ 16 + (c.kVal 12).toNat)
    | 0x4D0 => c.reg (s.fld (corePage g) CREG_SEL_W)
    | 0x500 =>
      let w := setBits w 15 8 (popM 8 (fun i => (c.vec.chain.find i).isSome))
      let w := setBits w 2 2 (b2n (c.vec.pipeBusy false))
      setBits (setBits w 1 1 (b2n (c.vec.pipeBusy true))) 0 0 (b2n c.vec.busy)
    | 0x600 =>
      let w := setBits w 47 37 (s.rowsOut g none)
      let w := setBits (setBits w 36 34 c.edge.ops.length) 33 29 c.edge.q.length
      setBits (setBits w 2 2 (b2n c.edge.keyset.isSome)) 0 0 (b2n c.edge.busy)
    | 0x7E8 =>
      let e := c.sp.maps.getD (64 * bits w 61 57 + bits w 56 51) ⟨0, 0⟩
      setBits (setBits (setBits w 63 62 0) 50 49 e.state) 48 39 e.lrow
    | _ =>
      if 0x700 ≤ off && off < 0x7C0 then
        let i := (off - 0x700) / 8
        let used := ((c.sp.maps.range (64 * i) (64 * i + 64)).filter (fun e => e.2.state != 0)).length
        let mig := (c.sp.mig.map (fun m => m.bank == i)).getD false
        let held := (c.sp.hold.map (fun h => h.bank == i)).getD false
        setBits (setBits (setBits w 23 23 (b2n mig)) 22 16 used) 15 15 (b2n held)
      else w
where
  popM (n : Nat) (f : Nat → Bool) : Nat := iter n (fun i a => if f i then a + 2 ^ i else a) 0

end Sys2Proof.Machine
end

