-- ==== Sys2Proof/WellFormed.lean ====
section
/-! DEFINITION. Which commands name units the manual gives the panel: the bounds of sites, dies, base dies,
stacks, photonic engines, Dome dies, ports, functions, rings, partitions, routers and link ports. What a part
omits under R2 is left to the meanings, which know the part. -/

namespace Sys2Proof

/-- Global core site 0–6,143 (R23). -/
def siteOk (g : Nat) : Bool := decide (g < 6144)
/-- Die or router number 0–383 (R18). -/
def dieOk (d : Nat) : Bool := decide (d < 384)
/-- Block 0–31 (R16). -/
def blockOk (b : Nat) : Bool := decide (b < 32)
/-- Base die 0–95 (R17). -/
def baseOk (u : Nat) : Bool := decide (u < 96)
/-- Host port and function (R279, R280). -/
def funcOk (p f : Nat) : Bool := decide (p < 4) && decide (f < 64)
/-- Submission ring (R284). -/
def ringOk (r : Nat) : Bool := decide (r < 8)
/-- Router and mesh port N, S, E, W (R254). -/
def linkOk (r p : Nat) : Bool := decide (r < 384) && decide (p < 4)
/-- Photonic engine, destination block and plane (R267). -/
def waveOk (b t k : Nat) : Bool := decide (b < 32) && decide (t < 32) && decide (k < 10)
/-- A power command link of a controller (R350). -/
def pclOk (m l : Nat) : Bool := decide (m < 2) && decide (l < 8)
/-- Controller M0 or M1 (R21). -/
def ctlOk (m : Nat) : Bool := decide (m < 2)
/-- A slice of 64·stack + pseudo-channel (R219). -/
def sliceOk (k : Nat) : Bool := decide (k < 4096)
/-- Partition identifier of a partition (R315). -/
def partOk (q : Nat) : Bool := decide (q < 64)
/-- Check unit: compute die d, or 384 + 2·m + u (R466). -/
def chkOk (u : Nat) : Bool := decide (u < 388)
/-- Facility channel FA or FB (R455). -/
def facOk (c : Nat) : Bool := decide (c < 2)
/-- Die with references: compute 0–383, Dome 384–391, base 400–495, photonic 500–531 (R335). -/
def refDieOk (d : Nat) : Bool :=
  decide (d < 392) || (decide (400 ≤ d) && decide (d < 496)) || (decide (500 ≤ d) && decide (d < 532))
/-- Frequency region 0–39 (R339). -/
def regionOk (r : Nat) : Bool := decide (r < 40)

def SensorUnit.ok : SensorUnit → Bool
  | .compute d => dieOk d
  | .base u => baseOk u
  | .photonic b => blockOk b
  | .stack n => decide (n < 64)
  | .dome i => decide (i < 8)

def RetestUnit.ok : RetestUnit → Bool
  | .site g => siteOk g
  | .die d => dieOk d

def RegAddr.ok : RegAddr → Bool
  | .core g o => siteOk g && decide (o < 0x1000)
  | .spine d o => dieOk d && decide (o < 0x100000)
  | .base u o => baseOk u && decide (o < 0x100000)
  | .slicectl n o => decide (n < 64) && decide (o < 0x100000)
  | .photonic b o => blockOk b && decide (o < 0x100000)
  | .dome i o => decide (i < 8) && decide (o < 0x100000)
  | .cache d o => dieOk d && decide (o < 0x1000)
  | .bar p f o => funcOk p f && decide (o < 0x4000)

end Sys2Proof
end

