-- ==== Sys2Proof/Machine/Operands.lean ====
section
/-! DEFINITION. Operand forms of the sequencer's instructions (R97–R100): the word of an instruction from its
fields, the effective operands and addresses, and issue itself: which instruction a sequencer in RUN may issue
at its PC, and how an instruction retires. -/

namespace Sys2Proof.Machine

/-- The instruction word of R97. -/
def encInsn (op : Nat) (a b c : BitVec 5) (x : BitVec 9) (imm : W32) : W64 :=
  BitVec.ofNat 64 (op * 2 ^ 56 + a.toNat * 2 ^ 51 + b.toNat * 2 ^ 46 + c.toNat * 2 ^ 41 + x.toNat * 2 ^ 32
    + imm.toNat)

/-- Three registers; two registers and an immediate. -/
def encR (op : Nat) (a b c : BitVec 5) : W64 := encInsn op a b c 0#9 0#32
def encI (op : Nat) (a b : BitVec 5) (imm : W32) : W64 := encInsn op a b 0#5 0#9 imm

/-- Field C of a word, field A, field B, field X, the immediate. -/
def wA (w : W64) : Nat := bits w 55 51
def wB (w : W64) : Nat := bits w 50 46
def wC (w : W64) : Nat := bits w 45 41
def wX (w : W64) : Nat := bits w 40 32
def wImm (w : W64) : W32 := BitVec.ofNat 32 (bits w 31 0)
def wOp (w : W64) : Nat := bits w 63 56

/-- The unused fields of a word are zero (R97, R99, R98): which fields an opcode uses, as (A, B, C, X, IMM),
and the bits of X and IMM it must leave zero. -/
def legalWord (w : W64) : Bool :=
  let op := wOp w
  let a0 := wA w == 0
  let b0 := wB w == 0
  let c0 := wC w == 0
  let x0 := wX w == 0
  let i0 := wImm w == 0#32
  let x4 := wX w < 16
  if op ≤ 0x02 then a0 && b0 && c0 && x0 && i0
  else if op == 0x03 then a0 && b0 && c0 && i0 && wX w < 32
  else if 0x10 ≤ op && op ≤ 0x1F then x0 && i0
  else if 0x24 ≤ op && op ≤ 0x26 then c0 && x0 && (wImm w).toNat < 64
  else if 0x20 ≤ op && op ≤ 0x29 then c0 && x0
  else if op == 0x2A then b0 && c0 && x0
  else if op == 0x2B then c0 && x0
  else if 0x30 ≤ op && op ≤ 0x35 then c0 && x0
  else if op == 0x36 then b0 && c0 && x0
  else if op == 0x37 then c0 && x0
  else if op == 0x40 then c0 && wX w < 8
  else if op == 0x41 then c0 && wX w < 4
  else if 0x50 ≤ op && op ≤ 0x52 then a0 && c0 && x0
  else if op == 0x60 || op == 0x61 then a0 && c0 && x4
  else if op == 0x62 then b0 && c0 && i0 && x4
  else if op == 0x63 then a0 && c0 && x4 && (wImm w).toNat < 2
  else if op == 0x70 then b0 && c0 && x0 && (wImm w).toNat < 0x1000 && (wImm w).toNat % 8 == 0
  else if op == 0x71 then a0 && c0 && x0 && (wImm w).toNat < 0x1000 && (wImm w).toNat % 8 == 0
  else 0xC0 ≤ op

/-- The instruction counter of R130. -/
def State.retired (s : State) (g : Nat) : State := s.addWrap (corePage g) RETIRED_W 1

/-- An instruction retires: the core as it leaves it, PC at the next instruction. -/
def State.finish (s : State) (g : Nat) (c : Core) : State :=
  (s.setCore g { c with pc := c.pc + 1 }).retired g

/-- The sequencer stalls (R122). -/
def State.stallAt (s : State) (g : Nat) (r : Stall) : State :=
  s.updCore g (fun c => { c with seq := .wait, stall := some r })

/-- A stall ends with its instruction retired (R122). -/
def State.unstall (s : State) (g : Nat) : State :=
  let c := s.core g
  s.finish g { c with seq := .run, stall := none }

/-- The instruction at PC p has been fetched: it is the latest entry of the instruction buffer (R95). -/
def Core.fetched (c : Core) (p : Nat) : Core := { c with ibuf := (p :: c.ibuf.filter (fun q => q != p)).take 256 }

/-- Issue the instruction word w at site g's PC (R94, R95): the site must exist, its sequencer must be in RUN,
the PC must lie in the scratchpad and in a bank the sequencer owns. A fetch that hits the instruction buffer reads
no scratchpad; one that misses must be correctable. -/
def issue (g : Nat) (w : W64) (f : State → State) (s : State) : Out :=
  if !siteOk g then .fault .absentUnit
  else
    let c := s.core g
    if c.seq != .run then .next s
    else if pcLimit ≤ c.pc then .next (s.seqFault g fkRange 0#64 (BitVec.ofNat 64 (8 * c.pc)))
    else if !s.owns g ownSeq (8 * c.pc) 8 then
      .next (s.seqFault g fkBank w (BitVec.ofNat 64 (8 * c.pc)))
    else if c.ibuf.contains c.pc then .next (f (s.setCore g (c.fetched c.pc)))
    else match s.spPoison g (8 * c.pc) 8 with
    | some a => .next (s.spUe g a 1 engSeq c.pc w 0#32 0)
    | none => .next (f ((s.correctAll g (8 * c.pc) 8 1).updCore g (fun k => k.fetched c.pc)))

/-- An instruction that only writes c[A], from the core's registers. -/
def aluInsn (g : Nat) (w : W64) (a : BitVec 5) (v : Core → W64) (s : State) : Out :=
  issue g w (fun s => let c := s.core g; s.finish g (c.setC a.toNat (v c))) s

/-- Three registers: the operation on c[B] and c[C]. -/
def rrInsn (op g : Nat) (a b c : BitVec 5) (f : W64 → W64 → W64) (s : State) : Out :=
  aluInsn g (encR op a b c) a (fun k => f (k.reg b.toNat) (k.reg c.toNat)) s

/-- A register and the sign-extended immediate. -/
def riInsn (op g : Nat) (a b : BitVec 5) (imm : W32) (f : W64 → W64 → W64) (s : State) : Out :=
  aluInsn g (encI op a b imm) a (fun k => f (k.reg b.toNat) (sext imm)) s

/-- A shift by IMM[5:0], illegal when IMM[31:6] is not zero (R98). -/
def shiftInsn (op g : Nat) (a b : BitVec 5) (imm : W32) (f : W64 → Nat → W64) (s : State) : Out :=
  if imm.toNat < 64 then aluInsn g (encI op a b imm) a (fun k => f (k.reg b.toNat) imm.toNat) s
  else issue g (encI op a b imm) (fun s => s.seqFault g fkIllegal (encI op a b imm) 0#64) s

/-- Go to a target (R100): outside 0–786,431 the branch faults RANGE, with no effect. -/
def State.jump (s : State) (g : Nat) (w : W64) (c : Core) (t : W64) : State :=
  if t.toNat < pcLimit then (s.setCore g { c with pc := t.toNat }).retired g
  else s.seqFault g fkRange w (t <<< 3)

/-- A branch of R98: when the condition on c[A] and c[B] holds, PC := PC + sext(IMM). -/
def brInsn (op g : Nat) (a b : BitVec 5) (imm : W32) (p : W64 → W64 → Bool) (s : State) : Out :=
  issue g (encI op a b imm) (fun s =>
    let c := s.core g
    if p (c.reg a.toNat) (c.reg b.toNat) then s.jump g (encI op a b imm) c (BitVec.ofNat 64 c.pc + sext imm)
    else s.finish g c) s

/-- Size in bytes of a load or store (R98). -/
def memSize (x : BitVec 9) : Nat := 2 ^ (x.toNat % 4)

/-- Sign extension of a loaded value of n bytes, or zero extension. -/
def loadExt (n v : Nat) (signed : Bool) : W64 :=
  if signed && 2 ^ (8 * n - 1) ≤ v then BitVec.ofNat 64 (v + (2 ^ 64 - 2 ^ (8 * n))) else BitVec.ofNat 64 v

/-- Check a scratchpad access of the sequencer (R99): wholly in the scratchpad and in banks it owns. -/
def State.seqAccess (s : State) (g : Nat) (w : W64) (addr n : Nat) (f : State → State) : State :=
  if spSize < addr + n then s.seqFault g fkRange w (BitVec.ofNat 64 addr)
  else if !s.owns g ownSeq addr n then
    s.seqFault g fkBank w (BitVec.ofNat 64 (s.notOwned g ownSeq addr n))
  else f s

/-- A read of the sequencer: poison faults SCRATCH_UE, a correctable granule is corrected. -/
def State.seqRead (s : State) (g : Nat) (w : W64) (addr n : Nat) (f : State → State) : State :=
  s.seqAccess g w addr n (fun s =>
    match s.spPoison g addr n with
    | some a => s.spUe g a 1 engSeq (s.core g).pc w 0#32 0
    | none => f (s.correctAll g addr n 1))

/-- The operand c[B] + sext(IMM). -/
def operandBI (c : Core) (b : BitVec 5) (imm : W32) : W64 := c.reg b.toNat + sext imm

end Sys2Proof.Machine
end

