-- ==== Sys2Proof/Machine/EngineOps.lean ====
section
/-! DEFINITION. How an engine of a core works through a descriptor: reads and writes of the scratchpad in banks
it owns, and faults referred to the sequencer (R58, R106). A piece of engine work either goes on with a new
state or ends in the state its fault leaves. -/

namespace Sys2Proof.Machine

/-- A piece of engine work: a result and the next state, or the state in which a fault has ended it. -/
abbrev Eng (α : Type) := StateT State (Except State) α

/-- The state that a piece of work leaves, whether it went through or faulted. -/
def Eng.go (m : Eng Unit) (s : State) : State :=
  match m.run s with
  | .ok (_, t) => t
  | .error t => t

/-- The work and its fault record: site, engine code, owner code, and what issued it (R126). -/
structure Work where
  g : Nat
  eng : Nat
  own : Nat
  pc : Nat
  insn : W64
  opid : W32
  desc : Nat

/-- End the work in a fault of the core. -/
def Work.fault {α : Type} (w : Work) (kind addr : Nat) : Eng α := fun s =>
  .error (s.coreFault w.g kind w.eng w.pc w.insn (BitVec.ofNat 64 addr) w.opid w.desc)

/-- Require a condition of the descriptor; an invalid one is an illegal instruction (R106). -/
def Work.require (w : Work) (p : Bool) : Eng Unit := if p then pure () else w.fault fkIllegal 0

/-- A region must lie in the scratchpad (R58, R106). -/
def Work.region (w : Work) (a n : Nat) : Eng Unit :=
  if n == 0 || a + n ≤ spSize then pure () else w.fault fkRange (max a spSize)

/-- Check that the engine owns the banks of [a, a+n). -/
def Work.owned (w : Work) (a n : Nat) : Eng Unit := do
  w.region a n
  let s ← get
  if s.owns w.g w.own a n then pure () else w.fault fkBank (s.notOwned w.g w.own a n)

/-- Read n bytes in banks the engine owns; poison faults SCRATCH_UE (R191). -/
def Work.read (w : Work) (a n : Nat) : Eng Nat := do
  w.owned a n
  let s ← get
  match s.spPoison w.g a n with
  | some b => fun s => .error (s.spUe w.g b 0 w.eng w.pc w.insn w.opid w.desc)
  | none =>
    set (s.correctAll w.g a n 0)
    pure (s.spVal w.g a n)

/-- Write n bytes in banks the engine owns. -/
def Work.write (w : Work) (a n v : Nat) : Eng Unit := do
  w.owned a n
  modify (fun s => s.spStore w.g a n v)

/-- Add 1 to the work's counter k (R104, R127). -/
def Work.count (w : Work) (k : Nat) : Eng Unit :=
  modify (fun s => s.kInc w.g k w.eng w.pc w.insn w.opid w.desc)

/-- The work of a queue entry of an engine. -/
def QEntry.work (q : QEntry) (g eng own : Nat) (opid : W32) : Work := ⟨g, eng, own, q.pc, q.insn, opid, q.word⟩

/-- Commands of a site: the site must exist. -/
def onSite (g : Nat) (f : State → State) (s : State) : Out :=
  if siteOk g then .next (f s) else .fault .absentUnit

/-- Firmware's writes to a core page: the clock of the core's row restarts (R340). -/
def onPage (g : Nat) (f : State → State) (s : State) : Out := onSite g (fun s => f (s.siteWake g)) s

/-- Commands of another unit: it must exist. -/
def onUnit (ok : Bool) (f : State → State) (s : State) : Out :=
  if ok then .next (f s) else .fault .absentUnit

/-- Engines run while their core is in RUN or WAIT, and in HALTED for the Finder's work; a FROZEN core's
engines are held (R121, R124). -/
def Core.enginesRun (c : Core) : Bool := c.seq == .run || c.seq == .wait

end Sys2Proof.Machine
end

