-- ==== Sys2Proof/Machine/Num.lean ====
section
/-! DEFINITION. Number formats (R34–R38), exact arithmetic on dyadic numbers, rounding to a format (R45, R47,
R50, R51), scales (R42, R45) and the 64-bit xorshift generator (R51). -/

namespace Sys2Proof.Machine

/-- The exact number m · 2^e. -/
structure Dy where
  m : Int
  e : Int
  deriving DecidableEq, Repr

def Dy.zero : Dy := ⟨0, 0⟩
def Dy.ofInt (i : Int) : Dy := ⟨i, 0⟩
def Dy.neg (a : Dy) : Dy := ⟨-a.m, a.e⟩
def Dy.abs (a : Dy) : Dy := ⟨a.m.natAbs, a.e⟩
def Dy.mul (a b : Dy) : Dy := ⟨a.m * b.m, a.e + b.e⟩
/-- a · 2^k. -/
def Dy.scale (a : Dy) (k : Int) : Dy := ⟨a.m, a.e + k⟩
/-- The mantissa of a at exponent e ≤ a.e. -/
def Dy.at (a : Dy) (e : Int) : Int := a.m * 2 ^ (a.e - e).toNat
def Dy.add (a b : Dy) : Dy :=
  let e := min a.e b.e
  ⟨a.at e + b.at e, e⟩
def Dy.sub (a b : Dy) : Dy := a.add b.neg
def Dy.lt (a b : Dy) : Bool := let e := min a.e b.e; a.at e < b.at e
def Dy.le (a b : Dy) : Bool := !b.lt a
def Dy.eqv (a b : Dy) : Bool := let e := min a.e b.e; a.at e == b.at e
def Dy.isZero (a : Dy) : Bool := a.m == 0
def Dy.maxD (a b : Dy) : Dy := if a.lt b then b else a
/-- floor(log2 |a|) for a ≠ 0. -/
def Dy.log2 (a : Dy) : Int := (Nat.log2 a.m.natAbs : Int) + a.e

/-- |a| ÷ 2^g truncated toward zero, and rounded to nearest even. -/
def Dy.truncTo (a : Dy) (g : Int) : Nat :=
  if g ≤ a.e then a.m.natAbs * 2 ^ (a.e - g).toNat else a.m.natAbs / 2 ^ (g - a.e).toNat

def rneDiv (n d : Nat) : Nat :=
  let q := n / d
  let r := n % d
  if 2 * r < d then q else if d < 2 * r then q + 1 else q + q % 2

def Dy.rneTo (a : Dy) (g : Int) : Nat :=
  if g ≤ a.e then a.m.natAbs * 2 ^ (a.e - g).toNat else rneDiv a.m.natAbs (2 ^ (g - a.e).toNat)

/-- How an element is rounded: to nearest even, or stochastically with a 16-bit draw (R50, R51). -/
inductive Rnd where
  | rne
  | sr (g : Nat)
  /-- away from zero: the upper of the two grid points that bound a value (R73) -/
  | away

/-- |a| ÷ 2^g rounded. Stochastic: |v| + g·u·2^−16, truncated toward zero onto the grid (R51). -/
def Dy.roundTo (a : Dy) (g : Int) (r : Rnd) : Nat :=
  match r with
  | .rne => a.rneTo g
  | .sr k => (a.abs.add ⟨k, g - 16⟩).truncTo g
  | .away =>
    let n := a.truncTo g
    if (⟨n, g⟩ : Dy).eqv a.abs then n else n + 1

/-- A binary floating-point format: exponent and mantissa bits, bias, and its largest finite value. -/
structure FF where
  eb : Nat
  mb : Nat
  bias : Int
  maxM : Nat
  maxE : Int

def ffE4M3 : FF := ⟨4, 3, 7, 14, 5⟩
def ffE5M2 : FF := ⟨5, 2, 15, 7, 13⟩
def ffFP4 : FF := ⟨2, 1, 1, 3, 1⟩
def ffFP16 : FF := ⟨5, 10, 15, 2047, 5⟩
def ffBF16 : FF := ⟨8, 7, 127, 255, 120⟩
def ffFP32 : FF := ⟨8, 23, 127, 16777215, 104⟩

def FF.top (f : FF) : Dy := ⟨f.maxM, f.maxE⟩

/-- Read a code: NaN as 0, an infinity as the largest finite value with its sign, negative zero as 0
(R35, R36, R45, R141). -/
def FF.dec (f : FF) (c : Nat) : Dy :=
  let s := c / 2 ^ (f.eb + f.mb) % 2
  let x := c / 2 ^ f.mb % 2 ^ f.eb
  let m := c % 2 ^ f.mb
  let v : Dy :=
    if x == 0 then ⟨m, 1 - f.bias - f.mb⟩
    else if x == 2 ^ f.eb - 1 && f.eb != 2 && !(f.eb == 4 && m != 7) then
      (if m == 0 && f.eb != 4 then f.top else Dy.zero)
    else ⟨2 ^ f.mb + m, x - f.bias - f.mb⟩
  if s == 1 then v.neg else v

/-- The code of a value n · 2^g that lies on the format's grid within its range, with a sign. Zero has the code of
+0 whatever its sign: no operation writes the code of −0 (R35, R142; for FP16O, BF16O and FP32 outputs of the
MAC array DESIGN CHOICE, log entry 8). -/
def FF.enc (f : FF) (neg : Bool) (n : Nat) (g : Int) : Nat :=
  let s := if neg then 2 ^ (f.eb + f.mb) else 0
  let v : Dy := ⟨n, g⟩
  if n == 0 then 0
  else
    let e := v.log2
    let emin := 1 - f.bias
    if e < emin then s + v.truncTo (emin - f.mb)
    else s + (e + f.bias).toNat * 2 ^ f.mb + (v.truncTo (e - f.mb) - 2 ^ f.mb)

/-- Exponent of the grid for |v|, continued above the top binade (R45). -/
def FF.grid (f : FF) (v : Dy) : Int :=
  max (1 - f.bias - f.mb) (min (v.log2 - f.mb) f.maxE)

/-- Round to a format: the code, and whether the value rounded beyond the largest finite value, where it
saturates with its sign (R45, R47, R50). -/
def FF.round (f : FF) (v : Dy) (r : Rnd) : Nat × Bool :=
  if v.isZero then (0, false)
  else
    let g := f.grid v
    let n := v.roundTo g r
    if f.top.lt ⟨n, g⟩ then (f.enc (v.m < 0) f.maxM f.maxE, true) else (f.enc (v.m < 0) n g, false)

/-- Round to FP32, nearest even, saturating (R47). -/
def rne32 (v : Dy) : W32 × Bool :=
  let r := ffFP32.round v .rne
  (BitVec.ofNat 32 r.1, r.2)

/-- The value of an FP32 word. -/
def val32 (w : W32) : Dy := ffFP32.dec w.toNat

/-- The value of an FP32 word rounded from v, and whether it saturated. -/
def add32 (a : W32) (v : Dy) : W32 × Bool := rne32 ((val32 a).add v)

/-- Element format codes (R34). -/
def fmE4M3 : Nat := 0
def fmE5M2 : Nat := 1
def fmINT8 : Nat := 2
def fmFP4 : Nat := 3
def fmINT4 : Nat := 4
def fmCAT : Nat := 5
def fmINT2 : Nat := 6
def fmTERN : Nat := 7
def fmBIN : Nat := 8
def fmFP16 : Nat := 9
def fmBF16 : Nat := 10
def fmFP32 : Nat := 11
def fmFP16O : Nat := 12
def fmBF16O : Nat := 13

/-- Bits of an element (R34, R39). -/
def fmWidth (f : Nat) : Nat :=
  match f with
  | 0 | 1 | 2 => 8
  | 3 | 4 | 5 => 4
  | 6 | 7 => 2
  | 8 => 1
  | 11 => 32
  | _ => 16

/-- Value of an element code (R35–R37); CAT is looked up by the caller. -/
def fmDec (f c : Nat) : Dy :=
  match f with
  | 0 => ffE4M3.dec c
  | 1 => ffE5M2.dec c
  | 2 => Dy.ofInt (sgn c 8)
  | 3 => ffFP4.dec c
  | 4 => Dy.ofInt (sgn c 4)
  | 6 => Dy.ofInt (sgn c 2)
  | 7 => if c == 1 then Dy.ofInt 1 else if c == 3 then Dy.ofInt (-1) else Dy.zero
  | 8 => if c == 0 then Dy.ofInt 1 else Dy.ofInt (-1)
  | 9 | 12 => ffFP16.dec c
  | 10 | 13 => ffBF16.dec c
  | _ => ffFP32.dec c

/-- Largest finite element value Fmax, and emax (R45). -/
def fmMax (f : Nat) : Dy :=
  match f with
  | 0 => ffE4M3.top
  | 1 => ffE5M2.top
  | 2 => Dy.ofInt 127
  | 3 => ffFP4.top
  | 4 => Dy.ofInt 7
  | _ => Dy.ofInt 1

def fmEmax (f : Nat) : Int :=
  match f with
  | 0 => 8
  | 1 => 15
  | 2 => 6
  | 3 => 2
  | 4 => 2
  | _ => 0

/-- Round v to an element of format f, clipped to ±Fmax: the code and whether it was clipped (R45, R50). -/
def fmQuant (f : Nat) (v : Dy) (r : Rnd) : Nat × Bool :=
  match f with
  | 0 => ffE4M3.round v r
  | 1 => ffE5M2.round v r
  | 3 => ffFP4.round v r
  | _ =>
    let top := (fmMax f).m.toNat
    let n := v.roundTo 0 r
    let k := min n top
    let w := fmWidth f
    ((if v.m < 0 then (2 ^ w - k) % 2 ^ w else k), decide (top < n))

/-- Scale modes of R45. -/
def asOcp : Nat := 0
def asFit : Nat := 1
def asHaloFit : Nat := 2
def asStatic : Nat := 3

/-- Smallest x with a ≤ Fmax · 2^x, for a > 0. -/
def fitExp (f : Nat) (a : Dy) : Int :=
  let c := a.log2 - (fmMax f).log2
  if a.le ((fmMax f).scale c) then c else c + 1

/-- The block's scale code (R45): from its magnitudes, the mode, and the adjustment; with whether it was held
at 0x00 or at 0xFE. -/
def scaleCode (f mode : Nat) (adj : Int) (astatic : Nat) (mags : List Dy) : Nat × Bool × Bool :=
  let clamp : Int → Nat × Bool × Bool := fun c =>
    if c < 0 then (0, true, false) else if 0xFE < c then (0xFE, false, true) else (c.toNat, false, false)
  let top := fun (l : List Dy) => l.foldl Dy.maxD Dy.zero
  if mode == asStatic then clamp astatic
  else
    let a1 := top mags
    let drop1 := fun (l : List Dy) => match l.findIdx? (fun x => x.eqv (top l)) with
      | some i => l.eraseIdx i
      | none => l
    let a := if mode == asHaloFit then top (drop1 (drop1 mags)) else a1
    if a.isZero then (0, false, false)
    else if mode == asOcp then clamp (a.log2 - fmEmax f + 127 - adj)
    else clamp (fitExp f a + 127 - adj)

/-- One step of the xorshift generator (R51); the draw is the state after the update. -/
def xorshift (x : W64) : W64 :=
  let x := x ^^^ (x <<< 13)
  let x := x ^^^ (x >>> 7)
  x ^^^ (x <<< 17)

/-- A seed of 0 is replaced (R51). -/
def seedOf (x : W64) : W64 := if x = 0#64 then 0x9E3779B97F4A7C15#64 else x

/-- The most significant n bits of a draw (R51). -/
def drawBits (x : W64) (n : Nat) : Nat := x.toNat / 2 ^ (64 - n)

/-- Round a quotient n ÷ d of positive numbers, each a dyadic number, to FP16. -/
def quot16 (n d : Dy) : Nat :=
  if n.isZero || d.isZero then 0
  else
    let k : Nat := 64
    let q : Dy := ⟨(n.m.natAbs * 2 ^ (k + d.m.natAbs.log2)) / d.m.natAbs, n.e - d.e - (k + d.m.natAbs.log2 : Nat)⟩
    let sticky := (n.m.natAbs * 2 ^ (k + d.m.natAbs.log2)) % d.m.natAbs != 0
    (ffFP16.round (if sticky then q.add ⟨1, q.e - 1⟩ else q) .rne).1

end Sys2Proof.Machine
end

