-- ==== Sys2Proof/Machine/Mac.lean ====
section
/-! DEFINITION. The MAC array of a core (R33–R64), its residue check (R65–R68), the sampling the Finder and the
drift probes do as rows pass (R70, R71, R79), the precision watch (R81–R83), promotion (R84–R88), readout
(R49–R52) and precision records (R90). -/

namespace Sys2Proof.Machine

/-- Fields of the MAC descriptor (R57). -/
def mdWfmt (d : Quad) : Nat := bits d.w0 63 60
def mdAfmt (d : Quad) : Nat := bits d.w0 59 56
def mdAqfmt (d : Quad) : Nat := bits d.w0 55 52
def mdOfmt (d : Quad) : Nat := bits d.w0 51 48
def mdAsmode (d : Quad) : Nat := bits d.w0 47 46
def mdWload (d : Quad) : Bool := bit d.w0 45
def mdWbuf (d : Quad) : Nat := bits d.w0 44 44
def mdClear (d : Quad) : Bool := bit d.w0 43
def mdReadout (d : Quad) : Bool := bit d.w0 42
def mdRnd (d : Quad) : Bool := bit d.w0 41
def mdHalo (d : Quad) : Bool := bit d.w0 40
def mdPromote (d : Quad) : Bool := bit d.w0 39
def mdTset (d : Quad) : Nat := bits d.w0 38 36
def mdDrift (d : Quad) : Bool := bit d.w0 35
def mdOsmode (d : Quad) : Nat := bits d.w0 34 34
def mdKc (d : Quad) : Nat := bits d.w0 31 28
def mdAdjA (d : Quad) : Int := sgn (bits d.w0 23 16) 8
def mdAdjW (d : Quad) : Int := sgn (bits d.w0 15 8) 8
def mdAstatic (d : Quad) : Nat := bits d.w0 7 0
def mdAsrc (d : Quad) : Nat := 32 * bits d.w1 63 46
def mdWsrc (d : Quad) : Nat := 32 * bits d.w1 45 28
def mdOdst (d : Quad) : Nat := 32 * bits d.w1 27 10
def mdM (d : Quad) : Nat := bits d.w1 9 0
def mdNused (d : Quad) : Nat := bits d.w2 63 55
def mdShadow (d : Quad) : Nat := 32 * bits d.w2 54 37
def mdOpid (d : Quad) : W32 := BitVec.ofNat 32 (bits d.w2 31 0)

/-- The activations are quantised on entry (R45). -/
def mdEntry (d : Quad) : Bool := mdAfmt d == fmFP16 || mdAfmt d == fmBF16

/-- The class of a permitted pair (R40): 0 8-bit, 1 W4A8, 2 4-bit, 3 2-bit, 4 binary. -/
def pairClass (w a : Nat) : Option Nat :=
  let w8 := w ≤ 2
  let w4 := 3 ≤ w && w ≤ 5
  if w8 && a ≤ 2 then some 0
  else if w4 && a ≤ 2 then some 1
  else if w4 && (a == 3 || a == 4) then some 2
  else if (w == 6 || w == 7) && (a == 6 || a == 7) then some 3
  else if w == 8 && a == 8 then some 4
  else none

/-- K and N of a class's weight tile, and M max (R41). -/
def clsK (c : Nat) : Nat := match c with | 0 | 1 => 32 | 2 => 64 | 3 => 128 | _ => 256
def clsN (c : Nat) : Nat := match c with | 0 => 32 | 1 | 2 => 64 | 3 => 128 | _ => 256
def clsMmax (c : Nat) : Nat := 16384 / clsN c

/-- Products the Finder forms in a cycle, by class (R76). -/
def clsRate (c : Nat) : Nat := match c with | 0 => 256 | 1 => 512 | 2 => 1024 | 3 => 4096 | _ => 16384

/-- The class a descriptor is issued in; with quantisation on entry AQFMT may not be BIN (R45). -/
def mdCls (d : Quad) : Option Nat :=
  if mdEntry d then (if mdAqfmt d == fmBIN then none else pairClass (mdWfmt d) (mdAqfmt d))
  else pairClass (mdWfmt d) (mdAfmt d)

def mdClass (d : Quad) : Nat := (mdCls d).getD 0
def mdK (d : Quad) : Nat := clsK (mdClass d)
def mdN (d : Quad) : Nat := clsN (mdClass d)

def align32 (n : Nat) : Nat := (n + 31) / 32 * 32

/-- Sections of the activation tile (R43): offsets of block scales and tensor scales, and the total. -/
def actScales (d : Quad) : Nat := 32 * mdM d
def actTensor (d : Quad) : Nat :=
  if mdEntry d then 2 * mdK d * mdM d else align32 (32 * mdM d + mdM d * (mdK d / 32))
def actSize (d : Quad) : Nat := actTensor d + 2 * mdM d

/-- Sections of a weight image of element width w (R44). -/
def wElems (w k n : Nat) : Nat := k * n * w / 8
def wTensor (w k n : Nat) : Nat := wElems w k n + align32 (k / 32 * n)
def wCats (w k n : Nat) : Nat := wTensor w k n + align32 (2 * n)
def wSize (f k n : Nat) : Nat := wCats (fmWidth f) k n + (if f == fmCAT then align32 (k / 32 * 16) else 0)

/-- Sections of an output tile (R52). -/
def outIsMx (d : Quad) : Bool := mdOfmt d ≤ 4
def outRow (d : Quad) : Nat :=
  if outIsMx d then align32 ((mdNused d + 31) / 32 * 32 * fmWidth (mdOfmt d) / 8)
  else align32 (mdNused d * fmWidth (mdOfmt d) / 8)
def outNb (d : Quad) : Nat := (mdNused d + 31) / 32
def outTensor (d : Quad) : Nat := align32 (outRow d * mdM d + outNb d * mdM d)
def outSize (d : Quad) : Nat := if outIsMx d then outTensor d + 2 * mdM d else outRow d * mdM d

/-- Reserved bits of the descriptor are zero (R57, R58). -/
def mdReservedZero (d : Quad) : Bool :=
  bits d.w0 33 32 == 0 && bits d.w0 27 24 == 0 && bits d.w2 36 32 == 0 && d.w3 == 0#64

/-- Two regions overlap. -/
def overlaps (a n b m : Nat) : Bool := a < b + m && b < a + n

/-- The work of a run's descriptor. -/
def MacRun.work (r : MacRun) (g : Nat) : Work := r.q.work g engMac ownMac (mdOpid r.q.d)

def State.setMac (s : State) (g : Nat) (m : Mac) : State := s.updCore g (fun c => { c with mac := m })
def State.mac (s : State) (g : Nat) : Mac := (s.core g).mac

def Mac.wbuf (m : Mac) (i : Nat) : Option WBuf := if i = 0 then m.wbuf0 else m.wbuf1

/-- Replace a run by its identifier. -/
def Mac.setRun (m : Mac) (r : MacRun) : Mac :=
  { m with runs := m.runs.map (fun x => if x.id == r.id then r else x) }

/-- Element i of the packed elements of an image, of w bits (R39). -/
def imgElem (img w i : Nat) : Nat := img / 2 ^ (w * i) % 2 ^ w
def imgByte (img i : Nat) : Nat := img / 256 ^ i % 256

/-- Entry c of the catalogue of 32-row group j of an image (R38, R44). -/
def catEntry (cls img j c : Nat) : Dy :=
  ffE4M3.dec (imgByte img (wCats 4 (clsK cls) (clsN cls) + 16 * j + c))

/-- Exact value of weight element (k, n) before its scale; catalogue entries are looked up (R38). -/
def WBuf.q (b : WBuf) (k n : Nat) : Dy :=
  let c := imgElem b.img (fmWidth b.fmt) (k * clsN b.cls + n)
  if b.fmt == fmCAT then catEntry b.cls b.img (k / 32) c else fmDec b.fmt c

/-- Residue modulo 7 of the integer significand of an operand element (R65). -/
def sigRes (v : Dy) : Nat := (v.m % 7).toNat

/-- The residues stored with a weight image as it is loaded (R65): of each element, or of the 16 catalogue values of each
group, at 3 bits each. -/
def imageResidues (fmt cls img : Nat) : Nat :=
  let l := if fmt == fmCAT then
      (List.range (clsK cls / 32 * 16)).map (fun i => sigRes (catEntry cls img (i / 16) (i % 16)))
    else (List.range (clsK cls * clsN cls)).map (fun i => sigRes (fmDec fmt (imgElem img (fmWidth fmt) i)))
  l.foldr (fun r a => r + 8 * a) 0

/-- The tile that loading an image gives (R44, R65). -/
def loadTile (fmt cls img : Nat) : WBuf := ⟨fmt, cls, img, imageResidues fmt cls img⟩

/-- The stored residue of weight element (k, n); a catalogue's are indexed by the element's 4-bit index (R65). -/
def WBuf.elemRes (b : WBuf) (k n : Nat) : Nat :=
  let i := k * clsN b.cls + n
  imgElem b.res 3 (if b.fmt == fmCAT then 16 * (k / 32) + imgElem b.img 4 i else i)

/-- Block scale code Ew[j][n], and tensor scale sw[n]. -/
def WBuf.ew (b : WBuf) (j n : Nat) : Nat :=
  imgByte b.img (wElems (fmWidth b.fmt) (clsK b.cls) (clsN b.cls) + j * clsN b.cls + n)
def WBuf.sw (b : WBuf) (n : Nat) : Nat :=
  let o := wTensor (fmWidth b.fmt) (clsK b.cls) (clsN b.cls) + 2 * n
  imgByte b.img o + 256 * imgByte b.img (o + 1)

/-- Limit and action of event kind k in threshold set t (R82, R91). -/
def State.pwLimit (s : State) (g t k : Nat) : Nat :=
  match k with
  | 0 => s.fld (corePage g) (TSET_W0_LIM_CLIP_IN t)
  | 1 => s.fld (corePage g) (TSET_W0_LIM_HALO_OVF t)
  | 2 => s.fld (corePage g) (TSET_W1_LIM_CLIP_OUT t)
  | 3 => s.fld (corePage g) (TSET_W1_LIM_SCALE_UF t)
  | 4 => s.fld (corePage g) (TSET_W2_LIM_SCALE_OF t)
  | 5 => s.fld (corePage g) (TSET_W2_LIM_SR_SAT t)
  | _ => s.fld (corePage g) (TSET_W3_LIM_DRIFT t)

def State.pwAction (s : State) (g t k : Nat) : Nat :=
  min 2 (s.fld (corePage g) (TSET_W4_ACTIONS t) / 2 ^ (2 * k) % 4)

/-- Kind k fires at a count (R82). -/
def State.pwFires (s : State) (g t k n : Nat) : Bool :=
  let l := s.pwLimit g t k
  l < n && l != 0xFFFFFFFF

/-- Add to an event count; counts saturate at 0xFFFF_FFFF (R81). -/
def MacRun.ev (r : MacRun) (k n : Nat) : MacRun :=
  { r with cnt := r.cnt.set k (min 0xFFFFFFFF (r.cnt.getD k 0 + n)) }

/-- One quantised block: its code, codes of the elements, exact values, which elements clipped, and whether
the code was held at 0x00 or 0xFE. -/
structure QBlock where
  code : Nat
  qs : List Dy
  clips : List Nat
  uf : Bool
  ovf : Bool

/-- Quantise a block of exact values (R45). -/
def quantBlock (f mode : Nat) (adj : Int) (astatic : Nat) (xs : List Dy) : QBlock :=
  let c := scaleCode f mode adj astatic (xs.map Dy.abs)
  let e : Int := (c.1 : Int) - 127 + adj
  let l := xs.map (fun x => fmQuant f (x.scale (-e)) .rne)
  ⟨c.1, l.map (fun p => fmDec f p.1), (List.range xs.length).filter (fun i => ((l[i]?).map (·.2)).getD false),
   c.2.1, c.2.2⟩

/-- Halo elements of a block (R53): at most two of the clipped elements, by largest error, then lower k; in
ascending k. -/
def haloPicks (b : QBlock) (adj : Int) (xs : List Dy) : List Nat :=
  let e : Int := (b.code : Int) - 127 + adj
  let errOf := fun i => ((xs.getD i Dy.zero).sub ((b.qs.getD i Dy.zero).scale e)).abs
  let best := fun (l : List Nat) => l.foldl (fun (o : Option Nat) i =>
    match o with
    | none => some i
    | some k => if (errOf k).lt (errOf i) then some i else some k) none
  match best b.clips with
  | none => []
  | some i =>
    match best (b.clips.filter (fun x => x != i)) with
    | none => [i]
    | some k => if i < k then [i, k] else [k, i]

/-- Format that activations have in the run: as stored, or the quantisation target of its rung (R84). -/
def MacRun.actFmt (r : MacRun) : Nat :=
  if mdEntry r.q.d then (if r.steps = 0 then mdAqfmt r.q.d else if r.cls = 2 then fmFP4 else fmE4M3)
  else mdAfmt r.q.d

/-- The weight format of the kept run (R61, R90). -/
def MacRun.wfmtRun (r : MacRun) : Nat :=
  let f := mdWfmt r.q.d
  if r.steps = 0 then f
  else if r.cls = 0 then (if f == fmINT4 then fmINT8 else if f ≤ 2 then f else fmE4M3)
  else if f == fmINT2 || f == fmTERN then fmFP4
  else f

/-- Source values of row m, elements k0 to k0 + n − 1, on entry. -/
def readSource (w : Work) (d : Quad) (m k0 n : Nat) : Eng (List Dy) := do
  let v ← w.read (mdAsrc d + (m * mdK d + k0) * 2) (2 * n)
  pure ((List.range n).map (fun i => fmDec (mdAfmt d) (v / 65536 ^ i % 65536)))

/-- A block of activations as the cells see it: scale code, values, halo picks with their exact source, and
the input-side counts CLIP_IN, HALO_OVF, held low and held high. -/
structure ActBlock where
  code : Nat
  qs : List Dy
  halos : List (Nat × Dy)
  clipIn : Nat
  haloOvf : Nat
  uf : Nat
  ovf : Nat

/-- Block j of activation row m, read from the tile or quantised on entry (R43, R45, R53). -/
def actBlock (w : Work) (d : Quad) (fmt m j : Nat) : Eng ActBlock := do
  if mdEntry d then
    let xs ← readSource w d m (32 * j) 32
    let b := quantBlock fmt (mdAsmode d) (mdAdjA d) (mdAstatic d) xs
    let picks := if mdHalo d then haloPicks b (mdAdjA d) xs else []
    let lost := b.clips.length - picks.length
    pure ⟨b.code, b.qs, picks.map (fun i => (i, xs.getD i Dy.zero)), lost, if mdHalo d then lost else 0,
      b2n b.uf, b2n b.ovf⟩
  else
    let wd := fmWidth fmt
    let v ← w.read (mdAsrc d + 32 * m + 32 * j * wd / 8) (4 * wd)
    let c ← w.read (mdAsrc d + actScales d + m * (mdK d / 32) + j) 1
    pure ⟨c, (List.range 32).map (fun i => fmDec fmt (imgElem v wd i)), [], 0, 0, 0, 0⟩

/-- A run is done with its weights and cannot be rerun: it has been read out, or it has no readout, its rows have landed
and its drift has been evaluated (R59, R86). -/
def MacRun.spent (x : MacRun) : Bool :=
  x.phase == .read || (x.phase == .landed && !mdReadout x.q.d && (!mdDrift x.q.d || x.driftDone))

/-- No earlier descriptor with writes outstanding has an output region that overlaps [a, a+n) (R59). -/
def clearOfOutputs (l : List MacRun) (a n : Nat) : Bool :=
  l.all (fun x => x.phase == .read || !mdReadout x.q.d || !overlaps (mdOdst x.q.d) (outSize x.q.d) a n)

/-- The weights of a descriptor may be loaded: no descriptor before it still uses the buffer, and none has writes
outstanding in the image (R59). -/
def mayLoad (before : List MacRun) (d : Quad) : Bool :=
  before.all (fun x => x.spent || mdWbuf x.q.d != mdWbuf d)
    && clearOfOutputs before (mdWsrc d) (wSize (mdWfmt d) (mdK d) (mdN d))

/-- Load the weight image of a descriptor into its buffer (R44, R57, R65). -/
def macLoad (w : Work) (d : Quad) : Eng Unit := do
  let v ← w.read (mdWsrc d) (wSize (mdWfmt d) (mdK d) (mdN d))
  let b := loadTile (mdWfmt d) (mdClass d) v
  modify (fun s => s.setMac w.g (if mdWbuf d = 0 then { s.mac w.g with wbuf0 := some b }
    else { s.mac w.g with wbuf1 := some b }))

/-- The descriptor at the head of the queue leaves it, and is checked then (R58); an invalid one faults ILLEGAL before a
region beyond the scratchpad faults RANGE, and regions are checked in the order ASRC, WSRC, ODST, SHADOW (DESIGN CHOICE,
log entry 64). Its weights load at once where they may, beside what the runs before it still do (R59, R85); else when
its streaming starts. -/
def macLeave (g : Nat) (e : QEntry) (rest : List QEntry) : Eng Unit := do
  let s ← get
  let d := e.d
  let w := e.work g engMac ownMac (mdOpid d)
  let mac := s.mac g
  w.require (mdReservedZero d)
  w.require (mdCls d).isSome
  let n := mdN d
  w.require (!mdReadout d || [0, 1, 2, 3, 4, 11, 12, 13].contains (mdOfmt d))
  w.require (1 ≤ mdM d && mdM d ≤ clsMmax (mdClass d))
  w.require (!mdReadout d || (1 ≤ mdNused d && mdNused d ≤ n))
  w.require (mdWload d || (match mac.wbuf (mdWbuf d) with
    | some b => b.fmt == mdWfmt d && b.cls == mdClass d
    | none => false))
  w.require (mdClear d || (match mac.accN with
    | some k => k == n
    | none => true))
  w.region (mdAsrc d) (actSize d)
  if mdWload d then w.region (mdWsrc d) (wSize (mdWfmt d) (mdK d) n) else pure ()
  if mdReadout d then w.region (mdOdst d) (outSize d) else pure ()
  if mdDrift d then w.region (mdShadow d) (wSize fmE4M3 (mdK d) n) else pure ()
  let input := [0, 1, 3, 4].any (fun k => s.pwAction g (mdTset d) k == 2)
  let scan := mdPromote d && mdEntry d && mdClass d != 0 && input
  let run : MacRun :=
    { id := mac.nextRun, q := e, cls := mdClass d, steps := 0
      phase := if scan then .scan else .ready, row := 0, replay := false, driftDone := false, cnt := [], fired := 0
      dmax := 0, picks := [], dpicks := [], samples := [], drifts := [], badOut := []
      loaded := !mdWload d || mayLoad mac.runs d, begun := false }
  let accN := if mdClear d then mac.accN else some n
  set (s.setMac g { mac with q := rest, runs := mac.runs ++ [run], nextRun := mac.nextRun + 1, accN := accN })
  if mdWload d && run.loaded then macLoad w d else pure ()

/-- The last run has begun to stream its first row, so the next descriptor may leave the queue (R58). -/
def Mac.mayLeave (m : Mac) : Bool :=
  match m.runs.getLast? with
  | none => true
  | some r => r.begun

/-- MAC_DESC_LEAVE_QUEUE (R58). -/
def execMacDescLeaveQueue (g : Nat) (s : State) : Out :=
  onSite g (fun s =>
    let m := s.mac g
    if (s.core g).enginesRun && m.mayLeave then
      match m.q with
      | [] => s
      | e :: r => (macLeave g e r).go s
    else s) s

/-- Count the input-side events of all M rows at the run's format (R85). -/
def macScan (w : Work) (r : MacRun) : Eng MacRun := do
  let d := r.q.d
  (List.range (mdM d * (mdK d / 32))).foldlM (fun (a : MacRun) i => do
    let b ← actBlock w d r.actFmt (i / (mdK d / 32)) (i % (mdK d / 32))
    pure ((((a.ev 0 b.clipIn).ev 1 b.haloOvf).ev 3 b.uf).ev 4 b.ovf)) { r with cnt := [] }

/-- MAC_PRESCAN_DONE (R85): the counts are taken, and a promote action that fires moves the descriptor one rung
up while PROMO_MAX allows; it scans again if steps remain and the class is not 8-bit. -/
def macPrescan (g : Nat) (r : MacRun) : Eng Unit := do
  let a ← macScan (r.work g) r
  let s ← get
  let t := mdTset r.q.d
  let kinds := [0, 1, 3, 4].filter (fun k => s.pwFires g t k (a.cnt.getD k 0))
  let mask := kinds.foldl (fun m k => Nat.lor m (2 ^ k)) r.fired
  let top := s.fld (corePage g) PW_CFG_PROMO_MAX
  let up := kinds.any (fun k => s.pwAction g t k == 2) && a.steps < top
  let r2 : MacRun :=
    if up then
      let c := a.cls - 1
      { a with cls := c, steps := a.steps + 1, cnt := [], fired := mask
               phase := if a.steps + 1 < top && c != 0 then .scan else .ready }
    else { a with cnt := [], fired := if kinds.isEmpty then r.fired else mask, phase := .ready }
  set (s.setMac g ((s.mac g).setRun r2))

/-- Runs before a run, in queue order. -/
def Mac.before (m : Mac) (r : MacRun) : List MacRun := m.runs.takeWhile (fun x => x.id != r.id)

/-- The activations of a run may be read: no output region of a run before it with writes outstanding overlaps them
(R59). -/
def Mac.mayRead (m : Mac) (r : MacRun) : Bool := clearOfOutputs (m.before r) (mdAsrc r.q.d) (actSize r.q.d)

def execMacPrescanDone (g : Nat) (s : State) : Out :=
  onSite g (fun s =>
    match (s.mac g).runs.find? (fun r => r.phase == .scan) with
    | some r => if (s.core g).enginesRun && (s.mac g).mayRead r then (macPrescan g r).go s else s
    | none => s) s

/-- A run may still be rerun one rung up (R86). -/
def MacRun.mayRerun (x : MacRun) : Bool :=
  mdDrift x.q.d && mdClear x.q.d && mdPromote x.q.d && mdEntry x.q.d && !x.driftDone

/-- Streaming of a run may begin (R59): its weights are loaded or may be, the last rows of the runs before it have entered
and none of them is to be rerun; its sources wait for the outputs before it, and a file to be cleared waits for the
readouts and corrections before it. -/
def Mac.mayStream (m : Mac) (r : MacRun) : Bool :=
  let d := r.q.d
  let b := m.before r
  b.all (fun x => (x.phase == .landed || x.phase == .read) && !x.mayRerun)
    && (r.loaded || mayLoad b d) && m.mayRead r
    && (!mdDrift d || clearOfOutputs b (mdShadow d) (wSize fmE4M3 (mdK d) (mdN d)))
    && (!mdClear d || (m.halo.isEmpty && b.all (fun x => x.phase == .read || !mdReadout x.q.d)))

/-- Sampling rate v of R70 and R79: below 4 acts as 4, above 12 as 12. -/
def sampleLog2 (v : Nat) : Nat := max 4 (min 12 v)

/-- Entries drawn, one from each group of 2^v, with the generator after the draws (R70). -/
def drawGroups (x : W64) (v total n : Nat) : W64 × List Nat :=
  match n with
  | 0 => (x, [])
  | k + 1 =>
    let p := drawGroups x v total k
    let y := xorshift p.1
    let e := k * 2 ^ v + drawBits y v
    (y, if e < total then p.2 ++ [e] else p.2)

/-- The drawings of a run at the start of its stream (R70, R79): the Finder's groups, then those of drift. -/
def macDraw (s : State) (g : Nat) (r : MacRun) : State × MacRun :=
  let total := mdM r.q.d * mdN r.q.d
  let v := sampleLog2 (s.fld (corePage g) FINDER_CFG_RATE_LOG2)
  let p := drawGroups (s.mac g).findGen v total ((total + 2 ^ v - 1) / 2 ^ v)
  if mdDrift r.q.d then
    let u := sampleLog2 (s.fld (corePage g) FINDER_CFG_DRIFT_LOG2)
    let q := drawGroups p.1 u total ((total + 2 ^ u - 1) / 2 ^ u)
    (s.setMac g { s.mac g with findGen := q.1 }, { r with picks := p.2, dpicks := q.2 })
  else (s.setMac g { s.mac g with findGen := p.1 }, { r with picks := p.2, dpicks := [] })

/-- Stream start: weights loaded where they were not before, the file cleared when CLEAR is set, samples drawn (R44, R59,
R70). A rerun keeps the weights it was loaded with (R61, R84). -/
def macStream (g : Nat) (r : MacRun) : Eng Unit := do
  let d := r.q.d
  let w := r.work g
  if r.loaded then pure () else macLoad w d
  if mdClear d then
    modify (fun s => s.setMac g { s.mac g with acc := [], accN := some (mdN d) })
  else pure ()
  let s ← get
  let p := macDraw s g { r with phase := .stream, row := 0, cnt := [], samples := [], drifts := [], loaded := true, begun := true }
  set (p.1.setMac g ((p.1.mac g).setRun p.2))

def execMacStreamStart (g : Nat) (s : State) : Out :=
  onSite g (fun s =>
    let m := s.mac g
    match m.runs.find? (fun r => r.phase == .ready) with
    | some r => if (s.core g).enginesRun && m.mayStream r then (macStream g r).go s else s
    | none => s) s

/-- Sub-passes of a run (R84): the original tile cut into tiles of the class it runs in. -/
def MacRun.nparts (r : MacRun) : Nat := mdN r.q.d / clsN r.cls
def MacRun.kparts (r : MacRun) : Nat := mdK r.q.d / clsK r.cls
def MacRun.subs (r : MacRun) : Nat := max 1 r.nparts * max 1 r.kparts
def MacRun.rows (r : MacRun) : Nat := mdM r.q.d * r.subs

/-- Exact block sum of row values with weight column n of block j (R46). -/
def blockSum (b : WBuf) (a : List Dy) (j n : Nat) : Dy :=
  ((List.range 32).foldl (fun (s : Dy) i => s.add ((a.getD i Dy.zero).mul (b.q (32 * j + i) n))) Dy.zero)

/-- Residue modulo 7 of a number in units of 2^−32 (R65, R66). -/
def residue7 (v : Dy) : Nat := ((v.at (min v.e (-32)) * (if v.e < -32 then 0 else 1)) % 7).toNat

/-- The residue sum of a cell column over block j: of each product, (res(sa) · res(sw) · 2^((ea + ew + 32) mod 3)) mod 7
(R65, R66). -/
def columnResidue (b : WBuf) (a : List Dy) (j n : Nat) : Nat :=
  ((List.range 32).map (fun i =>
    let x := a.getD i Dy.zero
    let k := 32 * j + i
    sigRes x * b.elemRes k n * 2 ^ ((x.e + (b.q k n).e + 32) % 3).toNat % 7)).sum % 7

/-- Scale exponent of a block (R47). -/
def blockExp (d : Quad) (ea ew : Nat) : Int := (ea : Int) + (ew : Int) - 254 + mdAdjA d + mdAdjW d

/-- A sample with one more value added in the Finder's order (R71, R72). -/
def FSample.add (p : FSample) (v : W32) : FSample :=
  let f := (add32 p.f (val32 v)).1
  let a := (val32 f).abs
  { p with f := f, vmax := if (val32 p.vmax).lt a then (rne32 a).1 else p.vmax, blocks := p.blocks + 1 }

/-- The Finder's result F: block values, then its halo corrections in ascending k (R71), with the largest
magnitude of the sequence. -/
def FSample.final (p : FSample) : W32 × W32 :=
  p.corr.foldl (fun (a : W32 × W32) v =>
    let f := (add32 a.1 (val32 v)).1
    (f, if (val32 a.2).lt (val32 f).abs then (rne32 (val32 f).abs).1 else a.2)) (p.f, p.vmax)

def newSample (e : Nat) (cap : W32) : FSample := ⟨e, cap, cap, (rne32 (val32 cap).abs).1, 0, [], cap, (0, 0)⟩

/-- What landing one column of a row leaves: accumulators, the run, and the samples of both kinds. -/
structure Land where
  acc : Tab W32
  run : MacRun

/-- Land one block value at entry (m, n) (R47): exact sum, scale, one rounding, one addition, with the upset an
undetected error of the block sum adds, and the Finder's own sum without it. A block with a 0xFF code has the value 0,
which the lane adds and the Finder counts as a block value (R42, R72). -/
def landBlock (d : Quad) (buf : WBuf) (m n j : Nat) (a : ActBlock) (up : Int) (l : Land) : Land :=
  let ew := buf.ew j n
  let e := m * mdN d + n
  if a.code == 0xFF || ew == 0xFF then
    let upd := fun (p : FSample) => if p.e == e then p.add 0#32 else p
    let run := l.run.ev 4 1
    { l with run := { run with samples := run.samples.map upd, drifts := run.drifts.map upd } }
  else
    let sum := blockSum buf a.qs j n
    let x := blockExp d a.code ew
    let own := (rne32 (sum.scale x)).1
    let v := rne32 ((sum.add ⟨up, -32⟩).scale x)
    let r := add32 (l.acc.getD e 0#32) (val32 v.1)
    let run := l.run.ev 4 (b2n v.2 + b2n r.2)
    let upd := fun (p : FSample) => if p.e == e then { p.add own with a := (add32 p.a (val32 v.1)).1 } else p
    ⟨l.acc.set e r.1, { run with samples := run.samples.map upd, drifts := run.drifts.map upd }⟩

/-- Shadow contribution of block j to column n (R79), in exact arithmetic; the scale adjustments ADJ_A and ADJ_W apply to
the shadow's block scales as to the descriptor's own (DESIGN CHOICE, log entry 64). -/
def shadowBlock (d : Quad) (sh : Nat) (a : List Dy) (j n : Nat) : Dy :=
  let w := mdN d
  let es := imgByte sh (wElems 8 (mdK d) w + j * w + n)
  if es == 0xFF then Dy.zero
  else
    ((List.range 32).foldl (fun (s : Dy) i =>
      s.add ((a.getD i Dy.zero).mul (ffE4M3.dec (imgByte sh ((32 * j + i) * w + n))))) Dy.zero).scale
      ((es : Int) - 127 + mdAdjW d)

/-- Shadow activations of block j of row m, as exact values (R79). -/
def shadowActs (w : Work) (d : Quad) (m j : Nat) (a : ActBlock) : Eng (List Dy) := do
  if mdEntry d then
    let xs ← readSource w d m (32 * j) 32
    let b := quantBlock fmE4M3 asFit (mdAdjA d) 0 xs
    pure (b.qs.map (fun q => q.scale ((b.code : Int) - 127 + mdAdjA d)))
  else if a.code == 0xFF then pure []
  else pure (a.qs.map (fun q => q.scale ((a.code : Int) - 127 + mdAdjA d)))

/-- Exact halo weights of element k in block j for every column (R54). -/
def haloWeights (d : Quad) (b : WBuf) (k : Nat) : List (Int × Int) :=
  (List.range (mdN d)).map (fun n =>
    let ew := b.ew (k / 32) n
    if ew == 0xFF then (0, 0)
    else let v := (b.q k n).scale ((ew : Int) - 127 + mdAdjW d); (v.m, v.e))

/-- d of a halo element (R54). -/
def haloD (d : Quad) (a : ActBlock) (i : Nat) (h : Dy) : W32 :=
  (rne32 (h.sub ((a.qs.getD i Dy.zero).scale ((a.code : Int) - 127 + mdAdjA d)))).1

/-- The halo elements a row sends to the halo unit, in ascending k. -/
def rowHalos (d : Quad) (buf : WBuf) (id m : Nat) (bl : List (Nat × ActBlock)) : List HaloElem :=
  bl.flatMap (fun p => p.2.halos.map (fun h =>
    ⟨id, m, haloD d p.2 h.1 h.2, haloWeights d buf (32 * p.1 + h.1)⟩))

/-- What a streamed row adds to the Finder's backlog, in 1/1,024 of a cycle: 4 ÷ 2^v cycles, or 4 while every entry is
sampled (R76), and for a descriptor with DRIFT (N ÷ 2^u) · K ÷ 256 cycles with the N and K of the class it runs in (R80). -/
def finderRowWork (prob : Bool) (v : Nat) (drift : Bool) (u n k : Nat) : Nat :=
  (if prob then 4096 else 4096 / 2 ^ v) + (if drift then n * k * 4 / 2 ^ u else 0)

/-- Land a row: the sub-pass of the run's next row (R47, R53, R70, R84). The row waits where its halo elements find no
free entry among the queue's 64 (R55). A row streamed once per N half meets its input-side events at the first half only
(DESIGN CHOICE, log entry 64). -/
def macLand (g : Nat) (r : MacRun) (buf : WBuf) (up : Option (Nat × Nat × Int)) : Eng Unit := do
  let d := r.q.d
  let w := r.work g
  let m := r.row % mdM d
  let sub := r.row / mdM d
  let np := sub % max 1 r.nparts
  let kp := sub / max 1 r.nparts
  let jn := clsK r.cls / 32
  let js := (List.range jn).map (fun i => kp * jn + i)
  let ns := (List.range (clsN r.cls)).map (fun i => np * clsN r.cls + i)
  let bl ← js.mapM (fun j => do let b ← actBlock w d r.actFmt m j; pure (j, b))
  let s ← get
  let mac := s.mac g
  let prob := s.flag (corePage g) FINDER_CFG_PROBATION
  let r0 : MacRun :=
    if sub == 0 then
      let es := (List.range (mdN d)).map (fun n => m * mdN d + n)
      { r with
        samples := r.samples ++ (es.filter (fun e => prob || r.picks.contains e)).map (fun e => newSample e (mac.acc.getD e 0#32))
        drifts := r.drifts ++ (es.filter (fun e => r.dpicks.contains e)).map (fun e => newSample e (mac.acc.getD e 0#32)) }
    else r
  let r1 : MacRun := if np == 0 then
      bl.foldl (fun a p => (((a.ev 0 p.2.clipIn).ev 1 p.2.haloOvf).ev 3 p.2.uf).ev 4 p.2.ovf) r0
    else r0
  let land := ns.foldl (fun l n => bl.foldl (fun l p =>
      let u : Int := match up with
        | some (c, k, x) => if c == n && k == p.1 then x else 0
        | none => 0
      landBlock d buf m n p.1 p.2 u l) l) (⟨mac.acc, r1⟩ : Land)
  let hs := if np == 0 then rowHalos d buf r.id m bl else []
  let fw := finderRowWork prob (sampleLog2 (s.fld (corePage g) FINDER_CFG_RATE_LOG2)) (mdDrift d)
    (sampleLog2 (s.fld (corePage g) FINDER_CFG_DRIFT_LOG2)) (clsN r.cls) (clsK r.cls)
  let addH := fun (p : FSample) =>
    if p.e / mdN d == m then
      { p with corr := p.corr ++ hs.map (fun h =>
          let q := h.wq.getD (p.e % mdN d) (0, 0)
          (rne32 ((val32 h.d).mul ⟨q.1, q.2⟩)).1) }
    else p
  let r2 := { land.run with samples := land.run.samples.map addH, drifts := land.run.drifts.map addH }
  -- shadow contributions of this row's drift samples
  let mine := r2.drifts.any (fun p => p.e / mdN d == m && ns.contains (p.e % mdN d))
  let r3 ← if mine then do
      let sh ← w.read (mdShadow d) (wSize fmE4M3 (mdK d) (mdN d))
      bl.foldlM (fun (a : MacRun) p => do
        let xs ← shadowActs w d m p.1 p.2
        pure { a with drifts := a.drifts.map (fun q =>
          if q.e / mdN d == m && ns.contains (q.e % mdN d) then
            let v := (⟨q.sh.1, q.sh.2⟩ : Dy).add (shadowBlock d sh xs p.1 (q.e % mdN d))
            { q with sh := (v.m, v.e) }
          else q) }) r2
    else pure r2
  let s ← get
  let last := r.row + 1 == r.rows
  let r4 : MacRun := { r3 with row := r.row + 1, replay := false, phase := if last then .landed else .stream }
  let mac := s.mac g
  if 64 < mac.halo.length + hs.length then pure ()
  else set (s.setMac g ({ mac with acc := land.acc, halo := mac.halo ++ hs, injRes := false
                                   backlog := mac.backlog + fw }.setRun r4))

/-- Kinds that have fired at the counts of a run, or at an earlier evaluation. -/
def State.macFired (s : State) (g : Nat) (r : MacRun) : List Nat :=
  (List.range 7).filter (fun k => s.pwFires g (mdTset r.q.d) k (r.cnt.getD k 0))

/-- The precision record of a run (R90). -/
def precRecord (r : MacRun) (g : Nat) (h : W32) (fired action : Nat) : Quad :=
  let c := fun k => sat16 (r.cnt.getD k 0)
  let d := r.q.d
  ⟨BitVec.ofNat 64 ((mdOpid d).toNat * 2 ^ 32 + h.toNat),
   BitVec.ofNat 64 (c 0 * 2 ^ 48 + c 1 * 2 ^ 32 + c 2 * 2 ^ 16 + c 3),
   BitVec.ofNat 64 (c 4 * 2 ^ 48 + c 5 * 2 ^ 32 + c 6 * 2 ^ 16 + (if mdDrift d then r.dmax else 0)),
   BitVec.ofNat 64 (g * 2 ^ 51 + mdTset d * 2 ^ 48 + mdWfmt d * 2 ^ 44 + r.wfmtRun * 2 ^ 40 + r.actFmt * 2 ^ 36
     + r.steps * 2 ^ 34 + action * 2 ^ 32 + fired * 2 ^ 25)⟩

/-- Queue a precision record, or drop it when 16 are queued (R90). -/
def State.pwPush (s : State) (g : Nat) (q : Quad) : State :=
  let m := s.mac g
  if 16 ≤ m.pw.length then s.addSat (corePage g) PW_FIFO_DROPPED 1
  else s.setMac g { m with pw := m.pw ++ [q] }

/-- Evaluate a run (R82, R83, R87, R88): the mask of kinds that fired, whether it ends with a warning, and the
action its record shows. -/
def State.macJudge (s : State) (g : Nat) (r : MacRun) : Nat × Bool × Nat :=
  let l := s.macFired g r
  let mask := l.foldl (fun m k => Nat.lor m (2 ^ k)) r.fired
  let warn := l.any (fun k => 1 ≤ s.pwAction g (mdTset r.q.d) k)
  (mask, warn, if 0 < r.steps then 2 else if warn then 1 else 0)

/-- The record of a run that a fault ends, when it was promoted or something fired (R92). -/
def State.macFaultRecord (s : State) (g : Nat) (r : MacRun) : State :=
  let j := s.macJudge g r
  if j.1 == 0 then s else s.pwPush g (precRecord r g (s.core g).handle j.1 j.2.2)

/-- A parity error of an accumulator entry (R68). -/
def State.macParity (s : State) (g : Nat) (r : MacRun) (eng : Nat) : State :=
  let s := s.addSat (corePage g) RES_COUNT_ACC_PARITY 1
  (s.macFaultRecord g r).coreFault g fkParity eng r.q.pc r.q.insn 0#64 (mdOpid r.q.d) r.q.word

/-- The comparison of the row in hand that may fail, as (column, block, error of the block sum): the first of the row when
a test inverts its expected value, or the one an upset falls on (R66, R91). The sums of the others are exact, and their
residues agree (R65). -/
def macSuspect (m : Mac) (r : MacRun) (e : MacUpset) : Option (Nat × Nat × Int) :=
  let sub := r.row / mdM r.q.d
  let np := sub % max 1 r.nparts
  let kp := sub / max 1 r.nparts
  if m.injRes then some (np * clsN r.cls, kp * (clsK r.cls / 32), 0)
  else match e with
  | .sum c b x =>
    if np * clsN r.cls ≤ c && c < (np + 1) * clsN r.cls && kp * (clsK r.cls / 32) ≤ b
      && b < (kp + 1) * (clsK r.cls / 32) then some (c, b, x) else none
  | _ => none

/-- Compare the residue of the suspect block sum with the column's residue sum, whose bit 0 a test inverts once; a
mismatch goes into RES_LAST (R66, R67, R91). Answers whether they differ. -/
def macCompare (g : Nat) (r : MacRun) (buf : WBuf) (e : MacUpset) : Eng Bool := do
  let s ← get
  match macSuspect (s.mac g) r e with
  | none => pure false
  | some (c, j, x) =>
    let d := r.q.d
    let b ← actBlock (r.work g) d r.actFmt (r.row % mdM d) j
    let want := columnResidue buf b.qs j c
    let ex := if (s.mac g).injRes then Nat.xor want 1 else want
    let ob := residue7 ((blockSum buf b.qs j c).add ⟨x, -32⟩)
    modify (fun s => s.setMac g { s.mac g with injRes := false })
    if ex == ob then pure false
    else
      modify (fun s => s.setReg (corePage g + 0x108) (BitVec.ofNat 64 ((mdOpid d).toNat * 2 ^ 32
        + (r.row % mdM d) * 2 ^ 22 + c * 2 ^ 14 + j * 2 ^ 11 + ex * 2 ^ 8 + ob * 2 ^ 5)))
      pure true

/-- The upset that a passed comparison lets through. -/
def upThrough : MacUpset → Option (Nat × Nat × Int)
  | .sum c b x => some (c, b, x)
  | _ => none

/-- The halo queue is full, and the array takes no row (R55). -/
def Mac.haloFull (m : Mac) : Bool := 64 ≤ m.halo.length

/-- The Finder's backlog exceeds 64 cycles, and the array holds rows back (R76). -/
def Mac.finderFull (m : Mac) : Bool := 64 * 1024 < m.backlog

/-- The row's values may land: neither queue holds it back, and the readouts of the runs before are done (R55, R59, R76).
Halo corrections of a run before that has no readout may land later (R56). -/
def Mac.mayLand (m : Mac) (r : MacRun) : Bool :=
  (m.before r).all (fun x => !mdReadout x.q.d || x.phase == .read) && !m.haloFull && !m.finderFull

/-- The run that streams, with its weights. -/
def State.macStreaming (s : State) (g : Nat) (replay : Bool) : Option (MacRun × WBuf) :=
  let m := s.mac g
  match m.runs.find? (fun r => r.phase == .stream) with
  | some r =>
    if r.replay == replay && (s.core g).enginesRun && m.mayLand r then
      (m.wbuf (mdWbuf r.q.d)).map (fun b => (r, b))
    else none
  | none => none

/-- A row whose comparisons pass lands; one whose comparison fails is discarded and streams again (R66, R67). -/
def macRow (g : Nat) (r : MacRun) (buf : WBuf) (e : MacUpset) : Eng Unit := do
  if ← macCompare g r buf e then modify (fun s => s.setMac g ((s.mac g).setRun { r with replay := true }))
  else macLand g r buf (upThrough e)

/-- A replayed row that passes is a corrected error, counted and logged, and lands; one that fails again is a contained
fault (R67). Nothing is counted while the row waits for the halo queue. -/
def macReplay (g : Nat) (r : MacRun) (buf : WBuf) (e : MacUpset) : Eng Unit := do
  let s0 ← get
  if ← macCompare g r buf e then
    modify (fun s => ((s.addSat (corePage g) RES_COUNT_FAILED 1).macFaultRecord g r).coreFault g fkResidue engMac r.q.pc
      r.q.insn 0#64 (mdOpid r.q.d) r.q.word)
  else
    modify (fun s => (s.addSat (corePage g) RES_COUNT_REPLAYED 1).logCorrected srcResReplay (s.core g).part (locSite g) 0#64
      [dieOfSite g])
    macLand g r buf (upThrough e)
    let s ← get
    if (s.mac g).runs.any (fun x => x.id == r.id && x.row == r.row) then set s0 else pure ()

/-- MAC_ROW_LAND (R47, R66–R68): the next row's comparisons pass and its block values land, or a comparison
fails and the row is to be streamed again, or a parity error faults the core. -/
def execMacRowLand (g : Nat) (e : MacUpset) (s : State) : Out :=
  onSite g (fun s =>
    match s.macStreaming g false with
    | none => s
    | some (r, buf) =>
      if e == .parity then s.macParity g r engMac else (macRow g r buf e).go s) s

/-- RESIDUE_REPLAY_LAND (R67): the row's second comparison passes, a corrected error, or fails, a contained
fault. -/
def execResidueReplayLand (g : Nat) (e : MacUpset) (s : State) : Out :=
  onSite g (fun s =>
    match s.macStreaming g true with
    | none => s
    | some (r, buf) =>
      if e == .parity then s.macParity g r engMac else (macReplay g r buf e).go s) s

/-- A sample whose entry lies in the element's row meets the element's addition, as the array made it (R54, R72). -/
def FSample.haloAdd (p : FSample) (h : HaloElem) (n0 : Nat) : FSample :=
  if p.e / n0 == h.row then
    let q := h.wq.getD (p.e % n0) (0, 0)
    { p with a := (add32 p.a (val32 (rne32 ((val32 h.d).mul ⟨q.1, q.2⟩)).1)).1 }
  else p

/-- One halo element's additions to the accumulators (R54), and its FP32 saturations. -/
def Mac.haloAdd (m : Mac) (h : HaloElem) (n0 : Nat) : Mac × Nat :=
  let p := (List.range h.wq.length).foldl (fun (a : Tab W32 × Nat) n =>
    let q := h.wq.getD n (0, 0)
    let v := rne32 ((val32 h.d).mul ⟨q.1, q.2⟩)
    let r := add32 (a.1.getD (h.row * n0 + n) 0#32) (val32 v.1)
    (a.1.set (h.row * n0 + n) r.1, a.2 + b2n v.2 + b2n r.2)) (m.acc, 0)
  ({ m with acc := p.1, halo := m.halo.tail }, p.2)

/-- HALO_CORRECTION (R54–R56): the halo unit finishes the element at the head of its queue. -/
def execHaloCorrection (g : Nat) (e : MacUpset) (s : State) : Out :=
  onSite g (fun s =>
    let m := s.mac g
    match m.halo with
    | [] => s
    | h :: _ =>
      match m.runs.find? (fun r => r.id == h.run) with
      | none => s
      | some r =>
        if !(s.core g).enginesRun then s
        else if e == .parity then s.macParity g r engMac
        else
          let p := m.haloAdd h (mdN r.q.d)
          let r := { r.ev 4 p.2 with samples := r.samples.map (fun x => x.haloAdd h (mdN r.q.d)) }
          s.setMac g (p.1.setRun r)) s

/-- The tensor scale sa[m] of the activation tile (R43, R49). -/
def readSa (w : Work) (d : Quad) (m : Nat) : Eng Nat := w.read (mdAsrc d + actTensor d + 2 * m) 2

/-- e of one drift sample rounded to FP16, and whether it exceeds (R79). Where s and DRIFT_FLOOR are both 0 the rule gives
e no value: the sample exceeds when |a − s| is not 0, and counts as 0 for the largest e (DESIGN CHOICE, log entry 64). -/
def driftSample (w : Work) (d : Quad) (buf : WBuf) (sh : Nat) (de fl : Dy) (p : FSample) : Eng (Nat × Bool) := do
  let n := p.e % mdN d
  let sa ← readSa w d (p.e / mdN d)
  let sav := ffFP16.dec sa
  let swv := ffFP16.dec (buf.sw n)
  let shw := ffFP16.dec (imgByte sh (wTensor 8 (mdK d) (mdN d) + 2 * n)
    + 256 * imgByte sh (wTensor 8 (mdK d) (mdN d) + 2 * n + 1))
  let a := (((val32 p.final.1).sub (val32 p.cap)).mul sav).mul swv
  let s := ((⟨p.sh.1, p.sh.2⟩ : Dy).mul sav).mul shw
  let den := Dy.maxD s.abs fl
  let num := (a.sub s).abs
  pure (quot16 num den, (de.mul den).lt num)

/-- DRIFT_EVALUATION (R79, R86): exceedances are counted, the largest e is kept, and a promote action that
fires reruns the descriptor one rung up where R86 allows; the Finder's samples of the run that is replaced are dropped
(DESIGN CHOICE, log entry 64). -/
def macDriftEval (g : Nat) (r : MacRun) (buf : WBuf) : Eng Unit := do
  let d := r.q.d
  let w := r.work g
  let sh ← w.read (mdShadow d) (wSize fmE4M3 (mdK d) (mdN d))
  let s ← get
  let t := mdTset d
  let de := ffFP16.dec (s.fld (corePage g) (TSET_W3_DRIFT_E t))
  let fl := ffFP16.dec (s.fld (corePage g) (TSET_W3_DRIFT_FLOOR t))
  let l ← r.drifts.mapM (fun p => driftSample w d buf sh de fl p)
  let s ← get
  let a := r.ev 6 (l.filter (fun x => x.2)).length
  let mx := l.foldl (fun m x => max m x.1) 0
  let fires := s.pwFires g t 6 (a.cnt.getD 6 0)
  let up := fires && s.pwAction g t 6 == 2 && mdClear d && mdPromote d && mdEntry d
    && a.steps < s.fld (corePage g) PW_CFG_PROMO_MAX && a.cls != 0 && a.cls != 4
  let fired := if fires then Nat.lor a.fired 64 else a.fired
  let r2 : MacRun :=
    if up then { a with cls := a.cls - 1, steps := a.steps + 1, phase := .ready, row := 0, cnt := [], fired := fired,
                        dmax := 0, samples := [], drifts := [], driftDone := false }
    else { a with dmax := mx, fired := fired, driftDone := true }
  set (s.setMac g ((s.mac g).setRun r2))

/-- The run's rows and halo corrections have all landed. -/
def Mac.drained (m : Mac) (r : MacRun) : Bool := r.phase == .landed && !(m.halo.any (fun h => h.run == r.id))

def execDriftEvaluation (g : Nat) (s : State) : Out :=
  onSite g (fun s =>
    let m := s.mac g
    match m.runs.find? (fun r => m.drained r && mdDrift r.q.d && !r.driftDone) with
    | some r =>
      match m.wbuf (mdWbuf r.q.d) with
      | some b => if (s.core g).enginesRun then (macDriftEval g r b).go s else s
      | none => s
    | none => s) s

/-- The rounding of the next element: nearest even, or one draw of the generator (R50, R51). -/
def macRnd (sr : Bool) (x : W64) : Rnd × W64 :=
  if sr then let y := xorshift x; (.sr (drawBits y 16), y) else (.rne, x)

/-- Codes the Finder accepts for an output element (R73): its own rounding to nearest even, or under
stochastic rounding either grid point that bounds the value. -/
def outAccepts (quant : Rnd → Nat) (sr : Bool) (c : Nat) : Bool :=
  if sr then c == quant (.sr 0) || c == quant .away else c == quant .rne

/-- One output element: from r and its scale exponent, code, clip or saturation. -/
def outQuant (fmt : Nat) (v : Dy) (x : Int) (rd : Rnd) : Nat × Bool :=
  if fmt == fmFP32 then ffFP32.round v .rne
  else if fmt == fmFP16O then ffFP16.round v rd
  else if fmt == fmBF16O then ffBF16.round v rd
  else fmQuant fmt (v.scale (-x)) rd

/-- What readout carries along: generator, the run with its counts, and the row's codes. -/
structure OutRow where
  gen : W64
  run : MacRun
  codes : List Nat
  scales : List Nat

/-- Quantise one block of a row's results (R50). -/
def outBlock (d : Quad) (m c0 : Nat) (vs : List Dy) (up : Option (Nat × Nat × Int)) (o : OutRow) : OutRow :=
  let fmt := mdOfmt d
  let mx := outIsMx d
  let sc := if mx then scaleCode fmt (if mdOsmode d = 0 then asOcp else asFit) 0 0 (vs.map Dy.abs) else (127, false, false)
  let x : Int := (sc.1 : Int) - 127
  let run := (o.run.ev 3 (b2n sc.2.1)).ev 4 (b2n sc.2.2)
  let r := (List.range vs.length).foldl (fun (a : OutRow) i =>
    let v := vs.getD i Dy.zero
    let rd := macRnd (mdRnd d && fmt != fmFP32) a.gen
    let q := outQuant fmt v x rd.1
    let n := c0 + i
    let c := match up with
      | some (col, row, dl) => if col == n && row == m then ((q.1 : Int) + dl).toNat % 2 ^ fmWidth fmt else q.1
      | none => q.1
    let run := if mx then a.run.ev 2 (b2n q.2) else if mdRnd d && fmt != fmFP32 then a.run.ev 5 (b2n q.2) else a.run
    let e := m * mdN d + n
    let bad := !outAccepts (fun rr => (outQuant fmt v x rr).1) (mdRnd d) c && c != q.1
    { a with gen := rd.2, run := if bad then { run with badOut := run.badOut ++ [e] } else run, codes := a.codes ++ [c] })
    { o with run := run }
  { r with codes := r.codes ++ (if mx then List.replicate (32 - vs.length) 0 else []), scales := r.scales ++ [sc.1] }

/-- Pack codes of w bits from the least significant bit upward (R39). -/
def packBits (w : Nat) (l : List Nat) : Nat := l.foldr (fun c a => c + 2 ^ w * a) 0

/-- Cut a list into pieces of n. -/
def chunks {α : Type} (n : Nat) (l : List α) (fuel : Nat) : List (List α) :=
  match fuel with
  | 0 => []
  | k + 1 => if l.isEmpty then [] else l.take n :: chunks n (l.drop n) k

/-- Read out row m (R49–R52). A tensor scale that is a NaN reads as 0 and an infinity as 65,504 with its sign; an unscaled
result that rounded to zero is written as +0; padding bytes of a row are written as zero and bytes between sections are
not written (DESIGN CHOICE, log entries 8 and 64). -/
def macOutRow (g : Nat) (d : Quad) (w : Work) (buf : WBuf) (up : Option (Nat × Nat × Int)) (sas : List Nat)
    (o : OutRow) (m : Nat) : Eng OutRow := do
  let s ← get
  let acc := (s.mac g).acc
  let sa := ffFP16.dec (sas.getD m 0)
  let rs := (List.range (mdNused d)).map (fun n =>
    let a := rne32 ((val32 (acc.getD (m * mdN d + n) 0#32)).mul sa)
    let b := rne32 ((val32 a.1).mul (ffFP16.dec (buf.sw n)))
    (val32 b.1, b2n a.2 + b2n b.2))
  let o := { o with run := o.run.ev 4 (rs.map (·.2)).sum, codes := [], scales := [] }
  let vs := rs.map (·.1)
  let o := (chunks 32 vs 9).foldl (fun (a : OutRow × Nat) b => (outBlock d m a.2 b up a.1, a.2 + 32)) (o, 0) |>.1
  w.write (mdOdst d + m * outRow d) (outRow d) (packBits (fmWidth (mdOfmt d)) o.codes)
  if outIsMx d then
    w.write (mdOdst d + outRow d * mdM d + m * outNb d) (outNb d) (packBits 8 o.scales)
    w.write (mdOdst d + outTensor d + 2 * m) 2 0x3C00
  else pure ()
  pure o

/-- MAC_READOUT (R49–R52): all reads precede all writes; the accumulator file is unchanged. -/
def macReadout (g : Nat) (r : MacRun) (buf : WBuf) (up : Option (Nat × Nat × Int)) : Eng Unit := do
  let d := r.q.d
  let w := r.work g
  let sas ← (List.range (mdM d)).mapM (fun m => readSa w d m)
  let s ← get
  let o ← (List.range (mdM d)).foldlM (fun o m => macOutRow g d w buf up sas o m) (⟨(s.mac g).gen, r, [], []⟩ : OutRow)
  modify (fun s => s.setMac g ({ s.mac g with gen := o.gen }.setRun { o.run with phase := .read }))

def execMacReadout (g : Nat) (e : MacUpset) (s : State) : Out :=
  onSite g (fun s =>
    let m := s.mac g
    match m.runs with
    | [] => s
    | r :: _ =>
      if (s.core g).enginesRun && m.drained r && mdReadout r.q.d && (!mdDrift r.q.d || r.driftDone) then
        if e == .parity then s.macParity g r engMac
        else match m.wbuf (mdWbuf r.q.d) with
          | some b => (macReadout g r b (upThrough e)).go s
          | none => s
      else s) s

/-- The Finder's jobs of a completed run (R71–R73). -/
def MacRun.jobs (r : MacRun) : List FinderJob :=
  r.samples.map (fun p => ⟨mdOpid r.q.d, r.q.pc, r.q.insn, r.q.word, p, p.a, !r.badOut.contains p.e, clsRate r.cls⟩)

/-- Add the descriptor's counts to its command's totals (R83, R88, R89). -/
def Handle.addPrec (h : Handle) (r : MacRun) (warn : Bool) : Handle :=
  { h with
    cnt := (List.range 7).foldl (fun t k =>
      if r.cnt.getD k 0 == 0 then t else t.set k (t.getD k 0 + r.cnt.getD k 0)) h.cnt
    warned := h.warned + b2n warn
    promoted := h.promoted + (if 0 < r.steps then 1 else 0) }

/-- MAC_DESC_COMPLETE (R60, R82, R83, R88–R90): the head run is done; it takes its precision action, its counts
are added up, the Finder owes its checks, and KC advances. -/
def State.macComplete (s : State) (g : Nat) (r : MacRun) (rest : List MacRun) : State :=
  let bp := corePage g
  let j := s.macJudge g r
  let s := if j.1 == 0 then s else s.pwPush g (precRecord r g (s.core g).handle j.1 j.2.2)
  let s := (List.range 7).foldl (fun s k => s.addWrap bp (PW_TOTAL_W k) (r.cnt.getD k 0)) s
  let s := if 0 < r.steps then s.addWrap bp PW_ACTIONS_PROMOTED 1 else s
  let s := if j.2.1 then s.addWrap bp PW_ACTIONS_WARNED 1 else s
  let s := s.updHandle (s.core g).handle (fun h => h.addPrec r j.2.1)
  let m := s.mac g
  let s := s.setMac g { m with runs := rest, finder := m.finder ++ r.jobs }
  s.kInc g (mdKc r.q.d) engMac r.q.pc r.q.insn (mdOpid r.q.d) r.q.word

def execMacDescComplete (g : Nat) (s : State) : Out :=
  onSite g (fun s =>
    let m := s.mac g
    match m.runs with
    | [] => s
    | r :: rest =>
      let done := if mdReadout r.q.d then r.phase == .read else m.drained r && (!mdDrift r.q.d || r.driftDone)
      if (s.core g).enginesRun && done then s.macComplete g r rest else s) s

/-- ulp of an FP32 magnitude, as an exponent. -/
def ulpExp (v : Dy) : Int := ffFP32.grid v

/-- The entry matches (R72). -/
def FinderJob.matches (j : FinderJob) : Bool :=
  let f := j.s.final
  if j.s.corr.isEmpty then j.a == f.1
  else
    let tol : Dy := ⟨(j.s.blocks + j.s.corr.length : Nat), ulpExp (val32 f.2)⟩
    !(tol.lt ((val32 j.a).sub (val32 f.1)).abs)

/-- The products the Finder can still owe, in 1/1,024 of a cycle: those of the entries it has not compared and of the samples
of the runs in the array (R76, R80). The Finder works in order, so a comparison shows that all work before it is done. -/
def finderOwed (jobs : List FinderJob) (runs : List MacRun) : Nat :=
  let cost := fun (rate : Nat) (p : FSample) => p.blocks * 32768 / rate
  (jobs.map (fun j => cost j.rate j.s)).sum
    + (runs.map (fun r => (r.samples.map (cost (clsRate r.cls))).sum + (r.drifts.map (cost 256)).sum)).sum

/-- FINDER_CHECK (R68, R71–R75): the Finder checks the entry at the head of its work. -/
def State.finderCheck (s : State) (g : Nat) (j : FinderJob) (e : MacUpset) : State :=
  let bp := corePage g
  let m := s.mac g
  let inj := m.injFind
  let s := s.setMac g { m with finder := m.finder.tail, injFind := false
                               backlog := min m.backlog (finderOwed m.finder.tail m.runs) }
  if e == .parity then
    (s.addSat bp RES_COUNT_ACC_PARITY 1).coreFault g fkParity engFinder j.pc j.insn 0#64 j.opid j.word
  else
    let s := s.addWrap bp FINDER_SAMPLES_W 1
    let okA := j.matches && !inj
    if okA && j.outOk then s
    else
      let s := s.addSat bp FINDER_STATUS_MISMATCH 1
      let s := s.setReg (bp + 0x148) (BitVec.ofNat 64 (j.opid.toNat * 2 ^ 32 + j.s.e * 2 ^ 18 + (if okA then 2 ^ 17 else 0)))
      let d := dieOfSite g
      let s := s.setAlm (almKey almFirst d) (s.almVal (almKey almFirst d) 0 + 1)
      s.coreFault g fkFinder engFinder j.pc j.insn 0#64 j.opid j.word

def execFinderCheck (g : Nat) (e : MacUpset) (s : State) : Out :=
  onSite g (fun s =>
    match (s.mac g).finder with
    | [] => s
    | j :: _ => if (s.core g).enginesRun then s.finderCheck g j e else s) s

/-- PW_POP (R90). -/
def execPwPop (g : Nat) (s : State) : Out :=
  onSite g (fun s => s.updCore g (fun c => { c with mac := { c.mac with pw := c.mac.pw.tail } })) s

/-- Debug is unlocked with the scope that INJECT needs (R91, R448, R449). -/
def State.injectOpen (s : State) : Bool := s.boot.unlocked && s.boot.scope / 2 % 2 == 1

/-- INJECT_RESIDUE and INJECT_FINDER (R91): they act only while debug is unlocked. -/
def execInjectResidue (g : Nat) (s : State) : Out :=
  onPage g (fun s => if s.injectOpen then s.setMac g { s.mac g with injRes := true } else s) s

def execInjectFinder (g : Nat) (s : State) : Out :=
  onPage g (fun s => if s.injectOpen then s.setMac g { s.mac g with injFind := true } else s) s

end Sys2Proof.Machine
end

