-- ==== Sys2Proof/Machine/Sequencer.lean ====
section
/-! DEFINITION. Starting and stopping a sequencer (R121–R124, R131) and core reset. -/

namespace Sys2Proof.Machine

/-- A transaction of site g. -/
def TxUse.ofSite (u : TxUse) (g : Nat) : Bool :=
  match u with
  | .dma x _ => x == g
  | .edge x _ _ => x == g
  | .sig x _ _ => x == g
  | .fill _ => false

/-- Close every transaction of a core whose UNACKED is cleared; its tags are held out of use (R131, R252). -/
def State.dropTxs (s : State) (g : Nat) : State :=
  let l := s.fab.txs.filter (fun t => t.use.ofSite g)
  { s with fab := { s.fab with
      txs := s.fab.txs.filter (fun t => !t.use.ofSite g)
      heldTags := s.fab.heldTags ++ l.map (fun t => (t.srouter, t.sep, t.tag)) } }

/-- The sequencer takes START and RSTART in IDLE, HALTED and FAULTED (R121, R122). -/
def SeqState.startable (q : SeqState) : Bool := q == .idle || q == .halted || q == .faulted

/-- What START and RSTART have in common (R95, R123, R131): the instruction buffer emptied, FAULT_REC, FAULT and FAULTS_LOST cleared, Staged fields
of the page applied, the generators reseeded from the seeds now in effect. -/
def State.seqBegin (s : State) (g : Nat) : State :=
  let bp := corePage g
  let s := s.applyStaged bp (bp + 0x1000)
  let s := (s.clearFaultRec g).setFld bp SEQ_STATUS_FAULTS_LOST 0
  let seed := fun F => seedOf (BitVec.ofNat 64 (s.fld bp F))
  s.updCore g (fun c => { c with
    seq := .run, stall := none, arrived := false, copied := false, ibuf := []
    mac := { c.mac with gen := seed MAC_SEED_W, findGen := seed FINDER_SEED_W }
    vec := { c.vec with gen := seed VEC_SEED_W }
    edge := { c.edge with gen := seed EDGE_SEED_W } })

/-- START (R123). -/
def State.seqStart (s : State) (g : Nat) : State :=
  if (s.core g).seq.startable then
    let bp := corePage g
    let l := (s.core g).launch
    let s := s.updCore g (fun c => { c with
      c := [(1, l.w0), (2, l.w1), (3, l.w2), (4, l.w3)], k := [] })
    let s := (s.seqBegin g).setFld bp EPOCH_REG_W 0
    s.updCore g (fun c => { c with pc := s.fld bp SEQ_CFG_ENTRY })
  else s

/-- After a rollback the edge engine holds no set and its map cache is empty (R179, R187). -/
def Core.rolledBack (c : Core) : Core := { c with edge := { c.edge with keyset := none, mapCache := [] } }

/-- RSTART (R131). -/
def State.seqRstart (s : State) (g : Nat) : State :=
  if (s.core g).seq.startable then
    let bp := corePage g
    let s := s.seqBegin g
    let s := s.setFld bp EPOCH_REG_W (s.fld bp RESTORE_EPOCH_W)
    s.updCore g (fun c => { c.rolledBack with pc := s.fld bp RESTORE_PC_W })
  else s

/-- The recovery clear (R131, R410): FROZEN or FAULTED becomes IDLE, the queues, the Finder's work, UNACKED and
FAULT_REC are cleared; registers, counters, scratchpad, vector state and owners stay. The key store and the map cache
are empty after it (R187). -/
def State.recoveryClear (s : State) (g : Nat) : State :=
  let c := s.core g
  if c.seq == .frozen || c.seq == .faulted then
    ((s.setCore g { c.discard.rolledBack with seq := .idle }).dropTxs g).clearFaultRec g
  else s

/-- Core reset (R121, R122, R130, R135, R193): the core, its page and its vector state at their reset values;
CYCLES counts from here. Its place in a partition is unassigned; scratchpad bytes stay (R209). Firmware loads its map
tables anew (R207), and the Finder of a die in PROBATION goes on sampling every entry (R31, R77). -/
def State.coreReset (s : State) (g : Nat) : State :=
  let bp := corePage g
  let s := (s.dropTxs g).loadMaps g
  let t := (s.core g).sp.maps
  let s := { s with
    cores := if t.isEmpty then s.cores.erase g
      else s.cores.set g { Core.reset with sp := { Core.reset.sp with maps := t } }
    regs := s.regs.eraseRange bp (bp + 0x1000)
    shadow := s.shadow.eraseRange bp (bp + 0x1000) }
  let s := if s.dieState (dieOfSite g) == dieProbation then s.setFld bp FINDER_CFG_PROBATION 1 else s
  if s.rowCyclesOf g == 0 then s else s.setReg (bp + 0x428) (BitVec.ofNat 64 (s.rowCyclesOf g))

/-- SEQ_START (R123). -/
def execSeqStart (g : Nat) (s : State) : Out := onPage g (fun s => s.seqStart g) s

/-- SEQ_STOP (R124). -/
def execSeqStop (g : Nat) (s : State) : Out := onPage g (fun s => s.updCore g Core.stop) s

/-- SEQ_RESUME (R124). -/
def execSeqResume (g : Nat) (s : State) : Out := onPage g (fun s => s.updCore g Core.resume) s

/-- SEQ_RSTART (R131). -/
def execSeqRstart (g : Nat) (s : State) : Out := onPage g (fun s => s.seqRstart g) s

/-- RECOVERY_CLEAR (R131). -/
def execRecoveryClear (g : Nat) (s : State) : Out := onPage g (fun s => s.recoveryClear g) s

/-- CORE_RESET (R122, R135). -/
def execCoreReset (g : Nat) (s : State) : Out := onPage g (fun s => s.coreReset g) s

end Sys2Proof.Machine
end

