-- ==== Sys2Proof/Machine/Net.lean ====
section
/-! DEFINITION. The panel address space (R212–R221): translation at the issuing core, the HBM interleave, packets
and their trains (R245–R250), tags (R246, R252), the injection queue (R266) and the remote-data cache
(R224–R229). -/

namespace Sys2Proof.Machine

/-- Place of slice 64·n + p in the spread order with every fitted slice in service (R220), and its inverse. -/
def State.spreadPos (s : State) (k : Nat) : Nat :=
  if s.part.hasEast then 64 * (k % 64) + k / 64 else 32 * (k % 64) + k / 64 / 2
def State.spreadAt (s : State) (i : Nat) : Nat :=
  if s.part.hasEast then 64 * (i % 64) + i / 64 else 64 * (2 * (i % 32)) + i / 32

/-- Places of the slices that were out of service when the interleave was built, rising. -/
def State.downPos (s : State) : List Nat := s.hbm.downAtBuild.foldl (fun l k => setIns l (s.spreadPos k)) []

/-- The slot-th slice of the spread order (R220). -/
def State.spread (s : State) (slot : Nat) : Nat :=
  s.spreadAt (s.downPos.foldl (fun k d => if d ≤ k then k + 1 else k) slot)

/-- Slice and offset of a physical interleaved address (R220). -/
def State.sliceOf (s : State) (p : Nat) : Nat × Nat :=
  let n := s.hbmN
  let q := p / 256 / n
  (s.spread ((p / 256 % n + 1031 * q) % n), 256 * q + p % 256)

/-- The inverse of R220; a slice outside the interleave has none. -/
def State.physOf (s : State) (k off : Nat) : Option Nat :=
  if s.hbm.downAtBuild.contains k || !s.part.hasStack (k / 64) then none
  else
    let n := s.hbmN
    let i := s.spreadPos k
    let slot := i - (s.downPos.filter (fun d => d < i)).length
    let q := off / 256
    some (256 * (q * n + (slot + n - 1031 * q % n) % n) + off % 256)

/-- Router and endpoint of a slice (R20, R219, R247). -/
def sliceRouter (k : Nat) : Nat :=
  let n := k / 64
  dieOfBase (3 * (n / 2) + (if n % 2 = 1 then 2 else 0)) (k % 64 / 16)
def sliceEp (k : Nat) : Nat := 0x20 + k % 16

/-- The slice behind an endpoint of a router, if one is attached (R20). -/
def State.sliceAt (s : State) (r ep : Nat) : Option Nat :=
  let b := blockOf r
  let p := 16 * (dieY r % 4) + (ep - 0x20)
  if dieX r % 3 == 0 then some (64 * (2 * b) + p)
  else if dieX r % 3 == 2 && s.part.hasStack (2 * b + 1) then some (64 * (2 * b + 1) + p)
  else none

/-- Routers of the host ports (R21, R247), and the port on a router. -/
def hostRouter (p : Nat) : Nat := match p with | 0 => 48 | 1 => 71 | 2 => 312 | _ => 335
def portAt (r : Nat) : Option Nat :=
  if r == 48 then some 0 else if r == 71 then some 1 else if r == 312 then some 2 else if r == 335 then some 3 else none

def hbmKey (p : Nat) : Nat := p / 128
def padKey (d slot off : Nat) : Nat := 2 ^ 40 + (14 * d + slot) * 49152 + off / 128

def addrSpace (a : W64) : Nat := bits a 63 60

/-- Core map entry of logical core l in the window set of site g (R216, R217): die and slot. -/
def State.lcoreAt (s : State) (g l : Nat) : Option (Nat × Nat) :=
  let w := s.winSet g
  let bp := spinePage (dieOfSite g)
  if l < s.fld bp (WIN_HDR_NCORES w) && s.flag bp (WIN_CORE_VALID w l) then
    some (s.fld bp (WIN_CORE_DIE w l), s.fld bp (WIN_CORE_SLOT w l))
  else none

/-- Unit u of the site's window set is mapped (R216, R217). -/
def State.unitMapped (s : State) (g u : Nat) : Bool :=
  let bp := spinePage (dieOfSite g)
  let w := s.winSet g
  u < s.fld bp (WIN_HDR_UNITS w) && s.flag bp (WIN_UNIT_VALID w u)

/-- Translation at the issuing core (R213, R217); none where the transfer is refused. -/
def State.dest (s : State) (g : Nat) (a : W64) : Option Dest :=
  let bp := spinePage (dieOfSite g)
  let w := s.winSet g
  if !s.flag bp (WIN_HDR_VALID w) then none
  else match addrSpace a with
  | 0 =>
    let u := bits a 41 30
    if bits a 59 42 == 0 && s.unitMapped g u then
      let p := s.fld bp (WIN_UNIT_PUNIT w u) * 2 ^ 30 + bits a 29 0
      let k := s.sliceOf p
      some ⟨sliceRouter k.1, sliceEp k.1, k.2, some (hbmKey p)⟩
    else none
  | 1 =>
    let k := 64 * bits a 59 54 + bits a 53 48
    let o := bits a 29 0
    if bits a 47 30 == 0 && o < sliceSize then
      some ⟨sliceRouter k, sliceEp k, o, (s.physOf k o).map hbmKey⟩
    else none
  | 2 =>
    let d := bits a 59 51
    let j := bits a 50 47
    let o := bits a 22 0
    if d < 384 && j < 14 && bits a 46 23 == 0 && o < spSize then some ⟨d, j, o, some (padKey d j o)⟩ else none
  | 3 =>
    let o := bits a 22 0
    if bits a 46 23 == 0 && o < spSize then
      (s.lcoreAt g (bits a 59 47)).map (fun e => ⟨e.1, e.2, o, some (padKey e.1 e.2 o)⟩)
    else none
  | 5 => if bits a 59 51 < 384 && bits a 50 12 == 0 then some ⟨bits a 59 51, 0x31, bits a 11 0, none⟩ else none
  | 8 =>
    if bits a 57 57 == 0 && bits a 59 58 == s.fld bp (WIN_HDR_HPORT w) then
      some ⟨hostRouter (bits a 59 58), 0x32, bits a 56 0, none⟩
    else none
  | _ => none

/-- Every byte of a transfer's range passes the checks at its source (R214). -/
def State.rangeOk (s : State) (g : Nat) (a : W64) (n : Nat) : Bool :=
  n == 0 ||
  ((s.dest g a).isSome &&
    (match addrSpace a with
    | 0 =>
      let e := bits a 41 0 + n - 1
      e < 2 ^ 42 && (List.range (e / 2 ^ 30 + 1 - bits a 41 30)).all (fun i => s.unitMapped g (bits a 41 30 + i))
    | 1 => bits a 29 0 + n ≤ sliceSize
    | 5 => bits a 11 0 + n ≤ 4096
    | 8 => bits a 56 0 + n ≤ 2 ^ 57
    | _ => bits a 22 0 + n ≤ spSize))

/-- Length of the first piece of a transfer (R249): to the next 256-byte granule in space 0x0, else to the next
512-byte boundary of the destination, and at most `cap` bytes. -/
def pieceLen (a : W64) (n cap : Nat) : Nat :=
  let z := if addrSpace a == 0 then 256 else 512
  min (min n cap) (z - a.toNat % z)

/-- A run of bytes cut into transactions (R249). -/
def pieces (fuel : Nat) (a : W64) (land n cap mask : Nat) : List TxReq :=
  match fuel with
  | 0 => []
  | k + 1 =>
    if n == 0 then []
    else
      let m := pieceLen a n cap
      ⟨a, land, m, mask, none, 127, a⟩ :: pieces k (a + BitVec.ofNat 64 m) (land + m) (n - m) cap mask

/-- A cacheable read is also cut at lines of 128 bytes, each looked up by itself (R224, R227). -/
def linePieces (fuel : Nat) (a : W64) (land n : Nat) : List TxReq :=
  match fuel with
  | 0 => []
  | k + 1 =>
    if n == 0 then []
    else
      let m := min n (128 - a.toNat % 128)
      ⟨a, land, m, 0, none, 127, a⟩ :: linePieces k (a + BitVec.ofNat 64 m) (land + m) (n - m)

/-- A transfer of site g is translated as it is taken (R218). -/
def State.resolve (s : State) (g : Nat) (p : TxReq) : TxReq := { p with dst := s.dest g p.addr, part := s.winPart g }

/-- Number the packets of a transaction (R246). -/
def train (h : Hdr) (l : List (W256 × BitVec 36)) : List (Hdr × W256) :=
  (List.range l.length).filterMap (fun i =>
    (l[i]?).map (fun p => ({ h with pidx := i, last := i + 1 == l.length, arg := p.2 }, p.1)))

/-- Channels and packet types (R246, R248). -/
def vcREQ : Nat := 0
def vcRSP : Nat := 1
def vcBULK : Nat := 2
def vcESC : Nat := 3
def ptRDREQ : Nat := 0
def ptRDRSP : Nat := 1
def ptWR : Nat := 2
def ptHWR : Nat := 3
def ptMCAST : Nat := 4
def ptACK : Nat := 5
def ptATOM : Nat := 6
def ptATRSP : Nat := 7
def ptSIGNAL : Nat := 8
def ptREFUSE : Nat := 9

/-- A header from source (router, endpoint) to destination (router, endpoint). -/
def mkHdr (sr se dr de part tag vc type : Nat) : Hdr :=
  ⟨dr, de, sr, se, part, tag, 0, false, vc, type, 0, 0#36⟩

/-- The header as a 96-bit value (R246). -/
def Hdr.word (h : Hdr) : BitVec 96 :=
  BitVec.ofNat 9 h.drouter ++ BitVec.ofNat 6 h.dep ++ BitVec.ofNat 9 h.srouter ++ BitVec.ofNat 6 h.sep
    ++ BitVec.ofNat 7 h.part ++ BitVec.ofNat 10 h.tag ++ BitVec.ofNat 4 h.pidx ++ BitVec.ofBool h.last
    ++ BitVec.ofNat 2 h.vc ++ BitVec.ofNat 4 h.type ++ BitVec.ofNat 2 h.rb ++ h.arg

/-- The header that a 96-bit value spells. -/
def Hdr.ofWord (w : BitVec 96) : Hdr :=
  let f := fun (lo n : Nat) => (w.extractLsb' lo n).toNat
  ⟨f 87 9, f 81 6, f 72 9, f 66 6, f 59 7, f 49 10, f 45 4, w.getLsbD 44, f 42 2, f 38 4, f 36 2, w.extractLsb' 0 36⟩

/-- The bytes that a packet's CRC covers: header and payload, with RB and VC taken as zero (R245). -/
def crcBytes (h : Hdr) (data : W256) : List Byte :=
  toBytes ({ h with rb := 0, vc := 0 } : Hdr).word.toNat 12 ++ toBytes data.toNat 32

/-- A packet's CRC-32C (R245). -/
def Packet.crc (p : Packet) : W32 := crc32c (crcBytes p.h p.data)

/-- The 48 bytes of a packet (R245). That a packet passes or fails a check of its CRC is told by the command that checks
it (log entry 67). -/
def Packet.bytes (p : Packet) : List Byte :=
  toBytes p.h.word.toNat 12 ++ toBytes p.data.toNat 32 ++ toBytes p.crc.toNat 4

/-- A write of the low n bytes of v at byte `off` of the destination (R249). -/
def wrTrain (h : Hdr) (off n v : Nat) : List (Hdr × W256) :=
  let f := off % 32
  let k := (f + n + 31) / 32
  let x := v % 256 ^ n * 256 ^ f
  let arg := BitVec.ofNat 36 (off / 32 * 2 ^ 11 + f * 2 ^ 6 + (f + n - 1) % 32 * 2)
  train { h with vc := if k = 1 then vcREQ else vcBULK, type := ptWR }
    ((List.range k).map (fun i => (BitVec.ofNat 256 (x / 2 ^ (256 * i)), arg)))

/-- A write in packets of an address and 24 data bytes (R249, R250); `top` is the rest of ARG. -/
def train24 (h : Hdr) (addr n v top : Nat) : List (Hdr × W256) :=
  train { h with vc := vcBULK } ((List.range ((n + 23) / 24)).map (fun i =>
    let m := min 24 (n - 24 * i)
    (BitVec.ofNat 256 (addr + 24 * i + v / 256 ^ (24 * i) % 256 ^ m * 2 ^ 64), BitVec.ofNat 36 (top + (m - 1)))))

/-- Payload of a read request (R250). -/
def rdPayload (off n : Nat) (line : Bool) : W256 :=
  BitVec.ofNat 256 (off + (n - 1) * 2 ^ 64 + (if line then 2 ^ 80 else 0))

/-- Payload of an atomic (R250). -/
def atomPayload (off : Nat) (operand compare : W64) (aop len : Nat) (ret : Bool) : W256 :=
  BitVec.ofNat 256 (off + operand.toNat * 2 ^ 64 + compare.toNat * 2 ^ 128 + aop * 2 ^ 192
    + (if len = 8 then 2 ^ 200 else 0) + (if ret then 2 ^ 201 else 0))

/-- Packets from the compute die in a router's injection queue (R266). -/
def Packet.fromDie (p : Packet) : Bool := p.h.sep < 0x20 || p.h.sep == 0x30 || p.h.sep == 0x31
def State.injCount (s : State) (r : Nat) : Nat :=
  (s.fab.packets.filter (fun p => p.loc == .injq r && p.fromDie)).length
def State.injRoom (s : State) (r n : Nat) : Bool := s.injCount r + n ≤ 64

/-- Throttling begins above INJ_THRESH packets and ends at half of it (R266). -/
def State.injThrottle (s : State) (r : Nat) : State :=
  let bp := routerPage r
  let n := s.injCount r
  let t := s.fld bp RT_CFG_INJ_THRESH
  if t < n then s.setFld bp RT_STATUS_THROTTLING 1
  else if n ≤ t / 2 && s.flag bp RT_STATUS_THROTTLING then s.setFld bp RT_STATUS_THROTTLING 0
  else s

/-- Queue packets for injection at a router. -/
def State.send (s : State) (r : Nat) (l : List (Hdr × W256)) : State :=
  let n := s.fab.nextId
  { s with fab := { s.fab with
      packets := s.fab.packets ++ (List.range l.length).filterMap (fun i =>
        (l[i]?).map (fun (p : Hdr × W256) => (⟨n + i, p.1, p.2, .injq r⟩ : Packet)))
      nextId := n + l.length } }.injThrottle r

/-- The packet numbered n. -/
def State.packet (s : State) (n : Nat) : Option Packet := s.fab.packets.find? (fun p => p.id == n)
def State.dropPacket (s : State) (n : Nat) : State :=
  { s with fab := { s.fab with packets := s.fab.packets.filter (fun p => p.id != n) } }
def State.movePacket (s : State) (n : Nat) (f : Packet → Packet) : State :=
  { s with fab := { s.fab with packets := s.fab.packets.map (fun p => if p.id == n then f p else p) } }

/-- A packet comes to another place, behind those that are there. -/
def State.sendTo (s : State) (k : Packet) (loc : PktLoc) : State :=
  { s with fab := { s.fab with packets := s.fab.packets.filter (fun p => p.id != k.id) ++ [{ k with loc := loc }] } }

/-- Add a packet with an identifier of its own. -/
def State.addPacket (s : State) (h : Hdr) (data : W256) (loc : PktLoc) : State :=
  { s with fab := { s.fab with packets := s.fab.packets ++ [⟨s.fab.nextId, h, data, loc⟩], nextId := s.fab.nextId + 1 } }

/-- The lowest tag of an endpoint that is not open and not held out of use (R246, R252). -/
def State.freeTag (s : State) (r ep : Nat) : Option Nat :=
  (List.range 1024).find? (fun t =>
    !s.fab.txs.any (fun x => x.srouter == r && x.sep == ep && x.tag == t) && !s.fab.heldTags.contains (r, ep, t))

def State.addTx (s : State) (t : Tx) : State := { s with fab := { s.fab with txs := s.fab.txs ++ [t] } }

/-- The open transaction of an endpoint's tag. -/
def State.txAt (s : State) (r ep tag : Nat) : Option Tx :=
  s.fab.txs.find? (fun x => x.srouter == r && x.sep == ep && x.tag == tag)
def State.updTx (s : State) (r ep tag : Nat) (f : Tx → Tx) : State :=
  { s with fab := { s.fab with txs := s.fab.txs.map (fun x =>
      if x.srouter == r && x.sep == ep && x.tag == tag then f x else x) } }

/-- Close a transaction; the lines it held back may fill again (R226). -/
def State.closeTx (s : State) (t : Tx) : State :=
  { s with fab := { s.fab with
      txs := s.fab.txs.filter (fun x => !(x.srouter == t.srouter && x.sep == t.sep && x.tag == t.tag))
      wlines := s.fab.wlines.filter (fun w => w.2.2 != (t.srouter, t.sep, t.tag)) } }

/-- The cache of a die (R224). -/
def State.lines (s : State) (d : Nat) : List CLine := s.fab.cache.getD d []
def State.setLines (s : State) (d : Nat) (l : List CLine) : State :=
  { s with fab := { s.fab with cache := if l.isEmpty then s.fab.cache.erase d else s.fab.cache.set d l } }

/-- Set of a line (R224). -/
def cacheSet (key : Nat) : Nat :=
  Nat.xor (Nat.xor key (key / 2 ^ 12)) (Nat.xor (key / 2 ^ 24) (key / 2 ^ 36)) % 4096

/-- Invalidate lines of a die; fills of them in flight deliver and are not installed (R228). -/
def State.cacheDrop (s : State) (d : Nat) (p : Nat → Nat → Bool) : State :=
  let s := s.setLines d ((s.lines d).filter (fun l => !p l.key l.part))
  { s with fab := { s.fab with fills := s.fab.fills.map (fun f =>
      if f.die == d && p f.key f.part then { f with install := false } else f) } }

/-- The cache lines of bytes [off, off+n) of a destination (R224): physical lines of a slice, or of a scratchpad. -/
def State.destKeys (s : State) (t : Dest) (n : Nat) : List Nat :=
  (granules t.off n 128).filterMap (fun o =>
    if t.dep < 0x10 then some (padKey t.router t.dep o)
    else if 0x20 ≤ t.dep && t.dep < 0x30 then
      ((s.sliceAt t.router t.dep).bind (fun k => s.physOf k o)).map hbmKey
    else none)

/-- A write or atomic of n bytes leaves the die (R226). -/
def State.cacheWrite (s : State) (d : Nat) (t : Dest) (n : Nat) (sep tag : Nat) : State :=
  let ks := s.destKeys t n
  if ks.isEmpty then s
  else
    let s := s.cacheDrop d (fun key _ => ks.contains key)
    { s with fab := { s.fab with wlines := s.fab.wlines ++ ks.map (fun k => (d, k, d, sep, tag)) } }

/-- Invalidate a partition's lines in every die, and keep its fills in flight from being installed (R228). -/
def State.cacheDropPart (s : State) (q : Nat) : State :=
  (s.fab.cache.map (·.1) ++ s.fab.fills.map (fun f => f.die)).eraseDups.foldl
    (fun s d => s.cacheDrop d (fun _ part => part == q)) s

/-- Count a cacheable read that hit or missed (R229). -/
def State.cacheCount (s : State) (d part : Nat) (hit : Bool) : State :=
  let c := s.fab.cacheCnt.getD (128 * d + part) (0, 0)
  let c2 := if hit then ((c.1 + 1) % 2 ^ 32, c.2) else (c.1, (c.2 + 1) % 2 ^ 32)
  { s with fab := { s.fab with cacheCnt := s.fab.cacheCnt.set (128 * d + part) c2 } }

/-- What a cacheable read of one line meets (R225–R227). -/
inductive CacheAns where
  | hit (data : W1024)
  /-- a fill of the line in flight that will be installed, by its tag -/
  | joined (tag : Nat)
  | fill
  | bypass
  deriving DecidableEq, Repr

def State.cacheLook (s : State) (g key : Nat) : CacheAns :=
  let d := dieOfSite g
  let bp := spinePage d
  let w := s.winSet g
  let tagged := s.flag bp (WIN_HDR_EPOCH_TAG w)
  let ep := s.fld (corePage g) EPOCH_REG_W % 256
  let part := s.winPart g
  match (s.lines d).find? (fun l => l.key == key && l.part == part && (!tagged || l.ep == ep)) with
  | some l => .hit l.data
  | none =>
    if s.fab.wlines.any (fun x => x.1 == d && x.2.1 == key) || s.fld bp (WIN_HDR_CACHE_WAYS w) == 0 then .bypass
    else match s.fab.fills.find? (fun f =>
        f.install && f.die == d && f.key == key && f.part == part && (!tagged || f.ep == ep)) with
    | some f => if f.waiters.length < 64 then .joined f.tag else .bypass
    | none => .fill

/-- A hit makes its line the most recently used. -/
def State.cacheTouch (s : State) (g key : Nat) : State :=
  let d := dieOfSite g
  let m := fun (l : CLine) => l.key == key && l.part == s.winPart g
  s.setLines d ((s.lines d).filter m ++ (s.lines d).filter (fun l => !m l))

/-- Install a filled line: into a free way that the partition may fill, else in place of the least recently
used line among those ways (R224). -/
def State.cacheInstall (s : State) (f : CFill) (ways : Nat) (data : W1024) : State :=
  let ls := (s.lines f.die).filter (fun l => !(l.key == f.key && l.part == f.part))
  let mine := ls.filter (fun l => cacheSet l.key == cacheSet f.key)
  let may := (List.range 16).filter (fun i => ways / 2 ^ i % 2 == 1)
  match may.find? (fun i => !mine.any (fun l => l.way == i)) with
  | some i => s.setLines f.die (⟨f.key, i, f.part, f.ep, data⟩ :: ls)
  | none =>
    match (mine.filter (fun l => may.contains l.way)).getLast? with
    | some v => s.setLines f.die (⟨f.key, v.way, f.part, f.ep, data⟩ :: ls.filter (fun l => l != v))
    | none => s

/-- What issued a use: site, engine, PC, instruction and descriptor word, as its fault record names them
(R112, R114, R126). -/
def State.useRec (s : State) (u : TxUse) : Nat × Nat × Nat × W64 × Nat :=
  match u with
  | .dma g i =>
    match (s.core g).dma.ops.find? (fun o => o.id == i) with
    | some o => (g, engDma, o.q.pc, o.q.insn, o.q.word)
    | none => (g, engDma, 0, 0#64, 0)
  | .edge g i _ =>
    match (s.core g).edge.ops.find? (fun o => o.id == i) with
    | some o => (g, engEdge, o.q.pc, o.q.insn, o.q.word)
    | none => (g, engEdge, 0, 0#64, 0)
  | .sig g pc w => (g, engSeq, pc, w, 0)
  | .fill _ => (0, 0, 0, 0#64, 0)

/-- Fault the core of a use (R112, R176). -/
def State.useFault (s : State) (u : TxUse) (kind : Nat) (addr : W64) : State :=
  match u with
  | .fill _ => s
  | _ =>
    let r := s.useRec u
    s.coreFault r.1 kind r.2.1 r.2.2.1 r.2.2.2.1 addr 0#32 r.2.2.2.2

/-- How data that arrives is poisoned (R191, R222): not at all, from a slice, or from a scratchpad. -/
inductive Poison where
  | none | slice | pad
  deriving DecidableEq, Repr

/-- Bytes of a gathered row have come; once all have, the row is written whole, in banks the DMA/network agent owns
(R171, R187). A row whose operation has been abandoned does not land (log entry 39). -/
def State.landRow (s : State) (g i row a n v : Nat) (bad : Bool) : State :=
  match (s.core g).edge.rows.find? (fun b => b.op == i && b.row == row) with
  | none => s
  | some b =>
    let rest := (s.core g).edge.rows.filter (fun x => !(x.op == i && x.row == row))
    let put := fun (l : List RowBuf) => s.updCore g (fun c => { c with edge := { c.edge with rows := l } })
    let got := (a, n, v % 256 ^ n, bad) :: b.got
    if (got.map (fun e => e.2.1)).sum < b.len then put (rest ++ [{ b with got := got }])
    else
      let s := put rest
      if !s.owns g ownDma b.land b.len then
        s.useFault (.edge g i row) fkBank (BitVec.ofNat 64 (s.notOwned g ownDma b.land b.len))
      else
        let s := s.spStore g b.land b.len ((got.map (fun e => e.2.2.1 * 256 ^ (e.1 - b.land))).sum)
        (got.filter (fun e => e.2.2.2)).foldl (fun s e => s.poisonRange (spBase g + e.1) e.2.1 8) s

/-- Land n bytes in the scratchpad of a use's core, in banks the DMA/network agent owns (R109, R171). Poison
of a slice travels; poison of a scratchpad faults the requesting core SCRATCH_UE with the panel address. -/
def State.land (s : State) (u : TxUse) (a n v : Nat) (p : Poison) (addr : W64) : State :=
  let g := (s.useRec u).1
  if n == 0 then s
  else if p == .pad then s.useFault u fkScratchUe addr
  else match u with
  | .edge g i row => s.landRow g i row a n v (p == .slice)
  | _ => if !s.owns g ownDma a n then s.useFault u fkBank (BitVec.ofNat 64 (s.notOwned g ownDma a n))
  else s.spStoreP g a n v (p == .slice)

end Sys2Proof.Machine
end

