-- ==== Sys2Proof/Machine/Agent.lean ====
section
/-! DEFINITION. The DMA/network agent at work (R102, R107–R112) and the requests of the edge engine (R162–R165,
R174–R176, R181): transactions are issued as tags and the injection queue allow, and operations complete. -/

namespace Sys2Proof.Machine

/-- Repeat a piece of work while it makes progress. -/
def Eng.loop (m : Eng Bool) (fuel : Nat) (s : State) : State :=
  match fuel with
  | 0 => s
  | k + 1 =>
    match m.run s with
    | .ok (true, t) => Eng.loop m k t
    | .ok (false, t) => t
    | .error t => t

/-- Fields of a DMA descriptor (R107). -/
def ddOp (d : Quad) : Nat := bits d.w0 63 60
def ddKc (d : Quad) : Nat := bits d.w0 59 56
def ddAck (d : Quad) : Bool := bit d.w0 55
def ddCach (d : Quad) : Bool := bit d.w0 54
def ddAop (d : Quad) : Nat := bits d.w0 53 49
def ddRet (d : Quad) : Bool := bit d.w0 48
def ddLen (d : Quad) : Nat := bits d.w0 47 24
def ddLaddr (d : Quad) : Nat := bits d.w0 22 0
def ddStride (d : Quad) : Nat := bits d.w2 63 40
def ddRow (d : Quad) : Nat := bits d.w2 39 16
def ddMask (d : Quad) : Nat := bits d.w3 23 0

/-- The work of a DMA entry. -/
def QEntry.dma (q : QEntry) (g : Nat) : Work := q.work g engDma ownDma 0#32

/-- The destination is the scratchpad of site g itself. -/
def State.isOwn (s : State) (g : Nat) (t : Dest) : Bool :=
  t.router == dieOfSite g && t.dep < 14 && s.slotSite t.router t.dep == some g

/-- Open a transaction under a free tag of the endpoint and queue its packets, if there is a tag and room. -/
def State.openTx (s : State) (g ep n : Nat) (t : Tx) (pk : Nat → List (Hdr × W256)) : Option State :=
  let d := dieOfSite g
  match s.freeTag d ep with
  | none => none
  | some tag =>
    if s.injRoom d n then
      some ((s.addTx { t with srouter := d, sep := ep, tag := tag }).send d (pk tag))
    else none

/-- A transaction record before its tag is known. -/
def mkTx (use : TxUse) (write : Bool) (p : TxReq) (land first len acks : Nat) : Tx :=
  ⟨0, 0, 0, use, write, p.addr, p.rep, p.part, land, first, len, 0, none, acks⟩

/-- A requester of bytes o on of a line. -/
def TxReq.waiter (p : TxReq) (u : TxUse) (o : Nat) : Waiter := ⟨u, p.land, o, p.len, p.addr, p.rep⟩

/-- A read of at most 512 bytes (R249, R250). -/
def State.openRead (s : State) (g ep : Nat) (u : TxUse) (t : Dest) (p : TxReq) : Option State :=
  s.openTx g ep 1 (mkTx u false p p.land (t.off % 32) p.len 0) (fun tag =>
    train (mkHdr (dieOfSite g) ep t.router t.dep p.part tag vcREQ ptRDREQ) [(rdPayload t.off p.len false, 0#36)])

/-- A cacheable read of bytes of one line (R225–R227). -/
def State.readCached (s : State) (g ep : Nat) (u : TxUse) (t : Dest) (p : TxReq) (key : Nat) : Option State :=
  let d := dieOfSite g
  let part := p.part
  let o := t.off % 128
  let miss := fun (s : State) => s.cacheCount d part false
  match s.cacheLook g key with
  | .hit data =>
    some (((s.cacheCount d part true).cacheTouch g key).land u p.land p.len (data.toNat / 256 ^ o) .none p.addr)
  | .joined tag =>
    some (miss { s with fab := { s.fab with fills := s.fab.fills.map (fun f =>
      if f.die == d && f.tag == tag then { f with waiters := f.waiters ++ [p.waiter u o] } else f) } })
  | .bypass => (s.openRead g ep u t p).map miss
  | .fill =>
    let tagged := s.freeTag d 0x31
    (s.openTx g 0x31 1 (mkTx (.fill d) false p 0 0 128 0) (fun tag =>
      train (mkHdr d 0x31 t.router t.dep part tag vcREQ ptRDREQ) [(rdPayload (t.off - o) 128 true, 0#36)])).map (fun s =>
      miss { s with fab := { s.fab with fills := s.fab.fills ++
        [⟨d, tagged.getD 0, key, part, s.fld (corePage g) EPOCH_REG_W % 256, true, [], 0,
          [p.waiter u o]⟩] } })

/-- The pattern of FILL from byte k on, n bytes. -/
def patVal (pat : W64) (k n : Nat) : Nat :=
  ofBytes ((List.range n).map (fun i => BitVec.ofNat 8 (pat.toNat / 256 ^ ((k + i) % 8))))

/-- Bits set in a mask of 24. -/
def maskBits (m : Nat) : List Nat := (List.range 24).filter (fun i => m / 2 ^ i % 2 == 1)

/-- The router at position i of the row, or of the column, of die d. -/
def lineRouter (d : Nat) (col : Bool) (i : Nat) : Nat := if col then dieAt (dieX d) i else dieAt i (dieY d)

/-- Issue one transaction of a DMA operation: false where a tag or room is wanting. -/
def dmaIssue (g : Nat) (o : DmaOp) (p : TxReq) : Eng Bool := do
  let s ← get
  let d := dieOfSite g
  let ep := g % 16
  let w := o.q.dma g
  let q := o.q.d
  let op := ddOp q
  let part := p.part
  let u : TxUse := .dma g o.id
  let take := fun (r : Option State) => match r with
    | some t => do set t; pure true
    | none => pure false
  match p.dst with
  | none => w.fault fkRefused p.addr.toNat
  | some t =>
    if op == 0 then
      match t.key with
      | some key => if ddCach q && !s.isOwn g t then take (s.readCached g ep u t p key) else take (s.openRead g ep u t p)
      | none => take (s.openRead g ep u t p)
    else if op == 3 then
      let ret := ddRet q
      let r := s.openTx g ep 1 (mkTx u true p p.land 0 (if ret then p.len else 0) 1) (fun tag =>
        train (mkHdr d ep t.router t.dep part tag vcREQ ptATOM)
          [(atomPayload t.off q.w2 q.w3 (ddAop q) p.len ret, 0#36)])
      take (r.map (fun t' => t'.cacheWrite d t p.len ep ((s.freeTag d ep).getD 0)))
    else
      let mcast := op == 4 || op == 5
      let host := addrSpace p.addr == 8
      let n := if mcast || host then (p.len + 23) / 24 else (t.off % 32 + p.len + 31) / 32
      match s.freeTag d ep with
      | none => pure false
      | some tag =>
        if !s.injRoom d n then pure false
        else
          let v ← if op == 2 then pure (patVal q.w2 p.land p.len) else w.read p.land p.len
          let s ← get
          let h := mkHdr d ep t.router t.dep part tag vcREQ ptWR
          if p.mask != 0 then
            let col := op == 5
            let l := train24 { h with drouter := d, type := ptMCAST } t.off p.len v
              (p.mask * 2 ^ 12 + (if col then 2 ^ 11 else 0))
            let s := (s.addTx { mkTx u true p p.land 0 p.len (maskBits p.mask).length with
              srouter := d, sep := ep, tag := tag }).send d l
            let s := (maskBits p.mask).foldl (fun s i =>
              s.cacheWrite d { t with router := lineRouter d col i } p.len ep tag) s
            set s
            pure true
          else
            let l := if host || mcast then train24 { h with type := ptHWR } t.off p.len v 0 else wrTrain h t.off p.len v
            let s := (s.addTx { mkTx u true p p.land 0 p.len 1 with srouter := d, sep := ep, tag := tag }).send d l
            set (s.cacheWrite d t p.len ep tag)
            pure true

/-- Transactions and cacheable reads of a DMA operation that are outstanding. -/
def State.dmaOut (s : State) (g i : Nat) : Nat :=
  (s.fab.txs.filter (fun t => t.use == .dma g i)).length
    + (s.fab.fills.flatMap (fun f => f.waiters.filter (fun w => w.use == .dma g i))).length

/-- Some packet of the operation waits in the injection queue. -/
def State.dmaUninjected (s : State) (g i : Nat) : Bool :=
  s.fab.packets.any (fun p => (match p.loc with | .injq _ => true | _ => false)
    && s.fab.txs.any (fun t => t.use == .dma g i && t.srouter == p.h.srouter && t.sep == p.h.sep && t.tag == p.h.tag))

def State.updDma (s : State) (g : Nat) (f : Dma → Dma) : State := s.updCore g (fun c => { c with dma := f c.dma })

/-- The operation completes when R110 says so: its counter advances, and it stays only for acknowledgements. -/
def State.dmaCheck (s : State) (g i : Nat) : State :=
  match (s.core g).dma.ops.find? (fun o => o.id == i) with
  | none => s
  | some o =>
    let out := s.dmaOut g i
    let drop := fun (s : State) => s.updDma g (fun x => { x with ops := x.ops.filter (fun y => y.id != i) })
    if o.done then (if out == 0 then drop s else s)
    else
      let op := ddOp o.q.d
      let fin := o.todo.isEmpty && (match op with
        | 0 | 3 => out == 0
        | 6 => !s.fab.invs.any (fun v => v.op == some (g, i))
        | _ => if ddAck o.q.d then out == 0 else !s.dmaUninjected g i)
      if fin then
        let s := if out == 0 then drop s
          else s.updDma g (fun x => { x with ops := x.ops.map (fun y => if y.id == i then { y with done := true } else y) })
        s.kInc g (ddKc o.q.d) engDma o.q.pc o.q.insn 0#32 o.q.word
      else s

/-- One step of the agent: the first running operation that has a transaction to issue. -/
def dmaStep (g : Nat) : Eng Bool := do
  let s ← get
  match (s.core g).dma.running.find? (fun o => !o.todo.isEmpty) with
  | none => pure false
  | some o =>
    match o.todo with
    | [] => pure false
    | p :: r =>
      let ok ← dmaIssue g o p
      if ok then
        modify (fun s => (s.updDma g (fun x => { x with ops := x.ops.map (fun y =>
          if y.id == o.id then { y with todo := r } else y) })).dmaCheck g o.id)
      else pure ()
      pure ok

/-- Fields of an edge descriptor (R167, R170). -/
def edOp (d : Quad) : Nat := bits d.w0 63 60
def edKc (d : Quad) : Nat := bits d.w0 59 56
def edIw (d : Quad) : Bool := bit d.w0 55
def edFl (d : Quad) : Nat := bits d.w0 54 52
def edShard (d : Quad) : Nat := bits d.w0 51 36
def edCount (d : Quad) : Nat := bits d.w0 31 0
def edIn0 (d : Quad) : Nat := bits d.w1 63 41
def edIn1 (d : Quad) : Nat := bits d.w1 40 18
def edRes (d : Quad) : Nat := 32 * bits d.w1 17 0
def edOut0 (d : Quad) : Nat := bits d.w2 63 41
def edOut1 (d : Quad) : Nat := bits d.w2 40 18
def edRowW (d : Quad) : Nat := bits d.w3 63 58
/-- Pitch of gathered or scattered rows in bytes (R174, R181). -/
def edPitch (d : Quad) : Nat := 32 * (if bits d.w3 57 52 == 0 then edRowW d else bits d.w3 57 52)

/-- The work of an edge entry with its own banks, and with those of the DMA/network agent. -/
def QEntry.edge (q : QEntry) (g : Nat) : Work := q.work g engEdge ownEdge 0#32
def QEntry.edgeDma (q : QEntry) (g : Nat) : Work := q.work g engEdge ownDma 0#32

def State.updEdge (s : State) (g : Nat) (f : Edge → Edge) : State := s.updCore g (fun c => { c with edge := f c.edge })

/-- An invalid identifier is counted (R164). -/
def edgeBad (g : Nat) : Eng Unit := modify (fun s => s.addSat (corePage g) EDGE_EVENTS_BADID 1)

/-- The entry of a shard, through the map cache of the 64 most recently used entries (R164, R165). -/
def shardEntry (w : Work) (sh : Nat) : Eng (Option (W64 × W64)) := do
  let s ← get
  let bp := corePage w.g
  let first := s.fld bp EDGE_SMAP_FIRST
  let n := min 4096 (s.fld bp EDGE_SMAP_NSHARD)
  if sh < first || first + n ≤ sh then pure none
  else
    let cache := (s.core w.g).edge.mapCache
    let e ← match cache.find? (fun e => e.1 == sh) with
      | some e => pure e.2
      | none => do
        let v ← w.read (32 * s.fld bp EDGE_SMAP_BASE + 16 * (sh - first)) 16
        pure (BitVec.ofNat 64 v, BitVec.ofNat 64 (v / 2 ^ 64))
    modify (fun s => s.updEdge w.g (fun x =>
      { x with mapCache := ((sh, e) :: x.mapCache.filter (fun y => y.1 != sh)).take 64 }))
    pure (if bit e.2 0 then some e else none)

/-- Rows of a shard; an entry that is not in use has none. -/
def shardRows (e : Option (W64 × W64)) : Nat := match e with | some e => bits e.2 63 32 | none => 0

/-- Address of a row (R164); none for an invalid identifier, which is counted. -/
def rowAddr (w : Work) (sh idx : Nat) : Eng (Option W64) := do
  let e ← shardEntry w sh
  match e with
  | none => do edgeBad w.g; pure none
  | some e =>
    if idx < bits e.2 63 32 then pure (some (e.1 + BitVec.ofNat 64 (idx * bits e.2 31 8)))
    else do edgeBad w.g; pure none

/-- Identifier i of a descriptor's list as (shard, index); none for one whose upper bits are not zero, which is
counted (R162, R163). -/
def edgeIdent (w : Work) (d : Quad) (i : Nat) : Eng (Option (Nat × Nat)) := do
  if edIw d then
    let v ← w.read (edIn0 d + 8 * i) 8
    if v / 2 ^ 48 == 0 then pure (some (v / 2 ^ 32, v % 2 ^ 32)) else do edgeBad w.g; pure none
  else
    let v ← w.read (edIn0 d + 4 * i) 4
    pure (some (edShard d, v))

/-- Address of row i's target. -/
def edgeTarget (w : Work) (d : Quad) (i : Nat) : Eng (Option W64) := do
  let id ← edgeIdent w d i
  match id with
  | some p => rowAddr w p.1 p.2
  | none => pure none

def setEdgeOp (g : Nat) (o : EdgeOp) : Eng Unit :=
  modify (fun s => s.updEdge g (fun x => { x with ops := x.ops.map (fun y => if y.id == o.id then o else y) }))

/-- A local gather (R175): the row is copied inside the core, from a bank of the DMA/network agent or of the
remote window. -/
def localGather (q : QEntry) (g a dst n : Nat) : Eng Unit := do
  let w := q.edgeDma g
  let s ← get
  let ok := (List.range (bankOf (a + n - 1) + 1 - bankOf a)).all (fun i =>
    s.owner g (bankOf a + i) == ownDma || s.owner g (bankOf a + i) == ownWindow)
  if !ok then w.fault fkBank a
  else match s.spPoison g a n with
  | some b => fun s => .error (s.spUe g b 0 engEdge q.pc q.insn 0#32 q.word)
  | none =>
    set (s.correctAll g a n 0)
    w.write dst n (s.spVal g a n)

/-- Take the next identifier of a gather or scatter (R174–R176, R181). The requests of its row are translated here, and
report the row's address (R176, R218). -/
def edgeTake (g : Nat) (o : EdgeOp) : Eng Unit := do
  let d := o.q.d
  let w := o.q.edge g
  let i := o.next
  let n := 32 * edRowW d
  let gather := edOp d == 1
  let slot := if gather then edOut0 d + edPitch d * i else edIn1 d + edPitch d * i
  let t ← edgeTarget w d i
  match t with
  | none =>
    if gather then (o.q.edgeDma g).write slot n 0 else pure ()
    setEdgeOp g { o with next := i + 1, made := o.made + b2n gather }
  | some a =>
    let s ← get
    if !s.rangeOk g a n || 3 < addrSpace a || (!gather && 1 < addrSpace a) then w.fault fkRefused a.toNat
    else
      modify (fun s => s.addWrap (corePage g) EDGE_ROWS_ROWS 1)
      if gather then
        match s.dest g a with
        | some t =>
          if s.isOwn g t then
            localGather o.q g t.off slot n
            setEdgeOp g { o with next := i + 1, made := o.made + 1 }
          else
            let l := if edFl d == 1 then linePieces (n + 1) a slot n else pieces (n + 1) a slot n 512 0
            modify (fun s => s.updEdge g (fun x => { x with rows := x.rows ++ [⟨o.id, i, slot, n, []⟩] }))
            setEdgeOp g { o with next := i + 1, made := o.made + 1,
                                 todo := l.map (fun p => (i, { s.resolve g p with rep := a })) }
        | none => w.fault fkRefused a.toNat
      else
        let l := (List.range (n / 4)).map (fun e =>
          (i, { s.resolve g ⟨a + BitVec.ofNat 64 (4 * e), slot + 4 * e, 4, 0, none, 127, a⟩ with rep := a }))
        setEdgeOp g { o with next := i + 1, made := o.made + 1, todo := l }

/-- Issue one transaction of a gather or scatter: false where a tag or room is wanting. -/
def edgeIssue (g : Nat) (o : EdgeOp) (row : Nat) (p : TxReq) : Eng Bool := do
  let s ← get
  let d := dieOfSite g
  let u : TxUse := .edge g o.id row
  let take := fun (r : Option State) => match r with
    | some t => do set t; pure true
    | none => pure false
  match p.dst with
  | none => (o.q.edge g).fault fkRefused p.rep.toNat
  | some t =>
    if edOp o.q.d == 1 then
      match t.key with
      | some key =>
        if edFl o.q.d == 1 then take (s.readCached g (0x10 + g % 16) u t p key)
        else take (s.openRead g (0x10 + g % 16) u t p)
      | none => take (s.openRead g (0x10 + g % 16) u t p)
    else
      let ep := g % 16
      match s.freeTag d ep with
      | none => pure false
      | some tag =>
        if !s.injRoom d 1 then pure false
        else
          let v ← (o.q.edgeDma g).read p.land 4
          let s ← get
          let aop := if edFl o.q.d == 1 then 0 else 1
          let r := s.openTx g ep 1 (mkTx u true p p.land 0 0 1) (fun tag =>
            train (mkHdr d ep t.router t.dep p.part tag vcREQ ptATOM)
              [(atomPayload t.off (BitVec.ofNat 64 v) 0#64 aop 4 false, 0#36)])
          take (r.map (fun s' => s'.cacheWrite d t 4 ep tag))

/-- One step of the edge engine's requests: at most MAXOUT + 1 rows are outstanding (R176). -/
def edgeStep (g : Nat) : Eng Bool := do
  let s ← get
  match (s.core g).edge.ops.find? (fun o => !o.todo.isEmpty || o.next < edCount o.q.d) with
  | none => pure false
  | some o =>
    match o.todo with
    | (row, p) :: r =>
      let ok ← edgeIssue g o row p
      if ok then setEdgeOp g { o with todo := r } else pure ()
      pure ok
    | [] =>
      if s.rowsOut g none ≤ s.fld (corePage g) EDGE_CFG_MAXOUT then
        edgeTake g o
        pure true
      else pure false

/-- Let a core's agent and edge engine issue what they can (R121, R124). -/
def State.pump (s : State) (g : Nat) : State :=
  if (s.core g).enginesRun then
    let n := ((s.core g).dma.ops.map (fun o => o.todo.length)).sum
    let s := Eng.loop (dmaStep g) n s
    if (s.core g).enginesRun then
      let m := ((s.core g).edge.ops.map (fun o =>
        o.todo.length + (edCount o.q.d - o.next) * (8 * edRowW o.q.d + 2))).sum
      Eng.loop (edgeStep g) m s
    else s
  else s

/-- The cores of a die, after the injection queue of its router has room again. -/
def State.pumpDie (s : State) (d : Nat) : State :=
  ((s.cores.range (16 * d) (16 * d + 16)).map (·.1)).foldl (fun s g => s.pump g) s

/-- Close a transaction and let its operation go on (R110, R252). -/
def State.txDone (s : State) (t : Tx) : State :=
  let s := s.closeTx t
  match t.use with
  | .dma g i => (s.dmaCheck g i).pump g
  | .edge g _ _ => s.pump g
  | .sig g _ _ => s.pump g
  | .fill _ => s

end Sys2Proof.Machine
end

