-- ==== Sys2Proof/Machine/Scalar.lean ====
section
/-! DEFINITION. The scalar instructions of the sequencer (R93–R100, R113, R115, R117, R118): arithmetic,
immediates, branches, loads and stores, counters, fences, and the core register accesses CSRR and CSRW. -/

namespace Sys2Proof.Machine

/-- NOP (R98). -/
def execNop (g : Nat) (s : State) : Out := issue g (encR 0x00 0#5 0#5 0#5) (fun s => s.finish g (s.core g)) s

/-- Every operation that FENCE selects by X has completed (R115). -/
def State.fenced (s : State) (g x : Nat) : Bool :=
  let c := s.core g
  (x % 2 == 0 || (c.mac.q.isEmpty && c.mac.runs.isEmpty))
    && (x / 2 % 2 == 0 || c.vec.q.isEmpty)
    && (x / 4 % 2 == 0 || (c.edge.q.isEmpty && c.edge.ops.isEmpty))
    && (x / 8 % 2 == 0 || (c.dma.q.isEmpty && c.dma.running.isEmpty))
    && (x / 16 % 2 == 0 || s.unacked g == 0)

/-- FENCE (R115); X[8:5] must be zero. -/
def execFence (g : Nat) (x : BitVec 9) (s : State) : Out :=
  let w := encInsn 0x03 0#5 0#5 0#5 x 0#32
  issue g w (fun s =>
    if 32 ≤ x.toNat then s.seqFault g fkIllegal w 0#64
    else if s.fenced g x.toNat then s.finish g (s.core g)
    else s.stallAt g (.fence x.toNat)) s

/-- The program has ended (R117, R122). -/
def State.halt (s : State) (g : Nat) : State :=
  let c := s.core g
  s.finish g { c with seq := .halted, stall := none }

/-- HALT once its fence is met: it waits for the Finder, then the core is HALTED (R117). -/
def State.haltGo (s : State) (g : Nat) : State :=
  if (s.core g).mac.finder.isEmpty then s.halt g else s.stallAt g .finder

/-- HALT (R117). -/
def execHalt (g : Nat) (s : State) : Out :=
  issue g (encR 0x01 0#5 0#5 0#5) (fun s =>
    if s.fenced g 0x1F then s.haltGo g else s.stallAt g .haltFence) s

/-- Words that LIVE0–LIVE7 name (R407). -/
def State.liveWords (s : State) (g : Nat) : Nat :=
  ((List.range 8).map (fun i => s.fld (corePage g) (LIVE_LEN i))).sum

/-- EPOCH once its fence is met: the arrival is reported and the core waits for the commit (R118). -/
def State.epochGo (s : State) (g : Nat) : State :=
  (s.updCore g (fun c => { c with arrived := true })).stallAt g .epochCommit

/-- EPOCH (R118); more than 24,576 live words are an illegal instruction (R407). -/
def execEpoch (g : Nat) (s : State) : Out :=
  let w := encR 0x02 0#5 0#5 0#5
  issue g w (fun s =>
    if 24576 < s.liveWords g then s.seqFault g fkIllegal w 0#64
    else if s.fenced g 0x1F then s.epochGo g else s.stallAt g .epochFence) s

/-- ADD (R98): c[A] := c[B] + c[C]. -/
def execAdd (g : Nat) (a b c : BitVec 5) (s : State) : Out :=
  rrInsn 0x10 g a b c (fun x y => x + y) s

/-- SUB (R98): c[A] := c[B] − c[C]. -/
def execSub (g : Nat) (a b c : BitVec 5) (s : State) : Out :=
  rrInsn 0x11 g a b c (fun x y => x - y) s

/-- AND (R98): bitwise and. -/
def execAnd (g : Nat) (a b c : BitVec 5) (s : State) : Out :=
  rrInsn 0x12 g a b c (fun x y => x &&& y) s

/-- OR (R98): bitwise or. -/
def execOr (g : Nat) (a b c : BitVec 5) (s : State) : Out :=
  rrInsn 0x13 g a b c (fun x y => x ||| y) s

/-- XOR (R98): bitwise exclusive or. -/
def execXor (g : Nat) (a b c : BitVec 5) (s : State) : Out :=
  rrInsn 0x14 g a b c (fun x y => x ^^^ y) s

/-- SHL (R98): left shift by c[C] mod 64. -/
def execShl (g : Nat) (a b c : BitVec 5) (s : State) : Out :=
  rrInsn 0x15 g a b c (fun x y => x <<< (y.toNat % 64)) s

/-- SHR (R98): logical right shift by c[C] mod 64. -/
def execShr (g : Nat) (a b c : BitVec 5) (s : State) : Out :=
  rrInsn 0x16 g a b c (fun x y => x >>> (y.toNat % 64)) s

/-- SRA (R98): arithmetic right shift by c[C] mod 64. -/
def execSra (g : Nat) (a b c : BitVec 5) (s : State) : Out :=
  rrInsn 0x17 g a b c (fun x y => x.sshiftRight (y.toNat % 64)) s

/-- MUL (R98): low 64 bits of the product. -/
def execMul (g : Nat) (a b c : BitVec 5) (s : State) : Out :=
  rrInsn 0x18 g a b c (fun x y => x * y) s

/-- MULHU (R98): high 64 bits of the unsigned product. -/
def execMulhu (g : Nat) (a b c : BitVec 5) (s : State) : Out :=
  rrInsn 0x19 g a b c (fun x y => BitVec.ofNat 64 (x.toNat * y.toNat / 2 ^ 64)) s

/-- MIN (R98): signed minimum. -/
def execMin (g : Nat) (a b c : BitVec 5) (s : State) : Out :=
  rrInsn 0x1A g a b c (fun x y => if x.slt y then x else y) s

/-- MAX (R98): signed maximum. -/
def execMax (g : Nat) (a b c : BitVec 5) (s : State) : Out :=
  rrInsn 0x1B g a b c (fun x y => if x.slt y then y else x) s

/-- MINU (R98): unsigned minimum. -/
def execMinu (g : Nat) (a b c : BitVec 5) (s : State) : Out :=
  rrInsn 0x1C g a b c (fun x y => if x.ult y then x else y) s

/-- MAXU (R98): unsigned maximum. -/
def execMaxu (g : Nat) (a b c : BitVec 5) (s : State) : Out :=
  rrInsn 0x1D g a b c (fun x y => if x.ult y then y else x) s

/-- SLT (R98): 1 when c[B] < c[C] signed, else 0. -/
def execSlt (g : Nat) (a b c : BitVec 5) (s : State) : Out :=
  rrInsn 0x1E g a b c (fun x y => if x.slt y then 1#64 else 0#64) s

/-- SLTU (R98): 1 when c[B] < c[C] unsigned, else 0. -/
def execSltu (g : Nat) (a b c : BitVec 5) (s : State) : Out :=
  rrInsn 0x1F g a b c (fun x y => if x.ult y then 1#64 else 0#64) s

/-- ADDI (R98): c[A] := c[B] + sext(IMM). -/
def execAddi (g : Nat) (a b : BitVec 5) (imm : W32) (s : State) : Out :=
  riInsn 0x20 g a b imm (fun x y => x + y) s

/-- ANDI (R98): bitwise and. -/
def execAndi (g : Nat) (a b : BitVec 5) (imm : W32) (s : State) : Out :=
  riInsn 0x21 g a b imm (fun x y => x &&& y) s

/-- ORI (R98): bitwise or. -/
def execOri (g : Nat) (a b : BitVec 5) (imm : W32) (s : State) : Out :=
  riInsn 0x22 g a b imm (fun x y => x ||| y) s

/-- XORI (R98): bitwise exclusive or. -/
def execXori (g : Nat) (a b : BitVec 5) (imm : W32) (s : State) : Out :=
  riInsn 0x23 g a b imm (fun x y => x ^^^ y) s

/-- SHLI (R98): left shift by IMM[5:0]. -/
def execShli (g : Nat) (a b : BitVec 5) (imm : W32) (s : State) : Out :=
  shiftInsn 0x24 g a b imm (fun x n => x <<< n) s

/-- SHRI (R98): logical right shift by IMM[5:0]. -/
def execShri (g : Nat) (a b : BitVec 5) (imm : W32) (s : State) : Out :=
  shiftInsn 0x25 g a b imm (fun x n => x >>> n) s

/-- SRAI (R98): arithmetic right shift by IMM[5:0]. -/
def execSrai (g : Nat) (a b : BitVec 5) (imm : W32) (s : State) : Out :=
  shiftInsn 0x26 g a b imm (fun x n => x.sshiftRight n) s

/-- MULI (R98): low 64 bits of c[B] × sext(IMM). -/
def execMuli (g : Nat) (a b : BitVec 5) (imm : W32) (s : State) : Out :=
  riInsn 0x27 g a b imm (fun x y => x * y) s

/-- SLTI (R98): 1 when c[B] < sext(IMM) signed, else 0. -/
def execSlti (g : Nat) (a b : BitVec 5) (imm : W32) (s : State) : Out :=
  riInsn 0x28 g a b imm (fun x y => if x.slt y then 1#64 else 0#64) s

/-- SLTIU (R98): 1 when c[B] < sext(IMM) unsigned, else 0. -/
def execSltiu (g : Nat) (a b : BitVec 5) (imm : W32) (s : State) : Out :=
  riInsn 0x29 g a b imm (fun x y => if x.ult y then 1#64 else 0#64) s

/-- LI (R98): c[A] := sext(IMM). -/
def execLi (g : Nat) (a : BitVec 5) (imm : W32) (s : State) : Out :=
  aluInsn g (encI 0x2A a 0#5 imm) a (fun _ => sext imm) s

/-- LIH (R98): c[A] := (IMM shifted left by 32) or the low half of c[B]. -/
def execLih (g : Nat) (a b : BitVec 5) (imm : W32) (s : State) : Out :=
  aluInsn g (encI 0x2B a b imm) a
    (fun k => (imm.setWidth 64 <<< 32) ||| (k.reg b.toNat &&& 0xFFFFFFFF#64)) s

/-- BEQ (R98, R100): branch when c[A] = c[B]. -/
def execBeq (g : Nat) (a b : BitVec 5) (imm : W32) (s : State) : Out :=
  brInsn 0x30 g a b imm (fun x y => x == y) s

/-- BNE (R98, R100): branch when c[A] ≠ c[B]. -/
def execBne (g : Nat) (a b : BitVec 5) (imm : W32) (s : State) : Out :=
  brInsn 0x31 g a b imm (fun x y => x != y) s

/-- BLT (R98, R100): branch when c[A] < c[B] signed. -/
def execBlt (g : Nat) (a b : BitVec 5) (imm : W32) (s : State) : Out :=
  brInsn 0x32 g a b imm (fun x y => x.slt y) s

/-- BGE (R98, R100): branch when c[A] ≥ c[B] signed. -/
def execBge (g : Nat) (a b : BitVec 5) (imm : W32) (s : State) : Out :=
  brInsn 0x33 g a b imm (fun x y => !x.slt y) s

/-- BLTU (R98, R100): branch when c[A] < c[B] unsigned. -/
def execBltu (g : Nat) (a b : BitVec 5) (imm : W32) (s : State) : Out :=
  brInsn 0x34 g a b imm (fun x y => x.ult y) s

/-- BGEU (R98, R100): branch when c[A] ≥ c[B] unsigned. -/
def execBgeu (g : Nat) (a b : BitVec 5) (imm : W32) (s : State) : Out :=
  brInsn 0x35 g a b imm (fun x y => !x.ult y) s

/-- JAL (R98, R100). -/
def execJal (g : Nat) (a : BitVec 5) (imm : W32) (s : State) : Out :=
  let w := encI 0x36 a 0#5 imm
  issue g w (fun s =>
    let c := s.core g
    s.jump g w (c.setC a.toNat (BitVec.ofNat 64 (c.pc + 1))) (BitVec.ofNat 64 c.pc + sext imm)) s

/-- JALR (R98, R100): the target is formed from c[B] before c[A] is written. -/
def execJalr (g : Nat) (a b : BitVec 5) (imm : W32) (s : State) : Out :=
  let w := encI 0x37 a b imm
  issue g w (fun s =>
    let c := s.core g
    s.jump g w (c.setC a.toNat (BitVec.ofNat 64 (c.pc + 1))) (operandBI c b imm)) s

/-- LD (R98, R99): X[1:0] size, X[2] sign extension; the other bits of X must be zero. -/
def execLd (g : Nat) (a b : BitVec 5) (x : BitVec 9) (imm : W32) (s : State) : Out :=
  let w := encInsn 0x40 a b 0#5 x imm
  let n := memSize x
  issue g w (fun s =>
    if 8 ≤ x.toNat then s.seqFault g fkIllegal w 0#64
    else
      let addr := (operandBI (s.core g) b imm).toNat
      s.seqRead g w addr n (fun s =>
        let c := s.core g
        s.finish g (c.setC a.toNat (loadExt n (s.spVal g addr n) (x.getLsbD 2))))) s

/-- ST (R98, R99, R190, R191): X[8:2] must be zero. -/
def execSt (g : Nat) (a b : BitVec 5) (x : BitVec 9) (imm : W32) (s : State) : Out :=
  let w := encInsn 0x41 a b 0#5 x imm
  let n := memSize x
  issue g w (fun s =>
    if 4 ≤ x.toNat then s.seqFault g fkIllegal w 0#64
    else
      let addr := (operandBI (s.core g) b imm).toNat
      s.seqAccess g w addr n (fun s =>
        let s := s.spStore g addr n ((s.core g).reg a.toNat).toNat
        s.finish g (s.core g))) s

/-- WAIT (R98, R99, R113): stalls until k[X] is at least the operand. -/
def execWait (g : Nat) (b : BitVec 5) (x : BitVec 9) (imm : W32) (s : State) : Out :=
  let w := encInsn 0x60 0#5 b 0#5 x imm
  issue g w (fun s =>
    let c := s.core g
    let v := (operandBI c b imm).toNat
    if 16 ≤ x.toNat || 65535 < v then s.seqFault g fkIllegal w 0#64
    else if v ≤ (c.kVal x.toNat).toNat then s.finish g c
    else s.stallAt g (.counter x.toNat v)) s

/-- KSUB (R98, R99, R113): the subtraction stops at zero. -/
def execKsub (g : Nat) (b : BitVec 5) (x : BitVec 9) (imm : W32) (s : State) : Out :=
  let w := encInsn 0x61 0#5 b 0#5 x imm
  issue g w (fun s =>
    let c := s.core g
    let v := (operandBI c b imm).toNat
    if 16 ≤ x.toNat || 65535 < v then s.seqFault g fkIllegal w 0#64
    else s.finish g { c with k := c.k.set x.toNat (BitVec.ofNat 16 ((c.kVal x.toNat).toNat - v)) }) s

/-- KRD (R98, R99). -/
def execKrd (g : Nat) (a : BitVec 5) (x : BitVec 9) (s : State) : Out :=
  let w := encInsn 0x62 a 0#5 0#5 x 0#32
  issue g w (fun s =>
    let c := s.core g
    if 16 ≤ x.toNat then s.seqFault g fkIllegal w 0#64
    else s.finish g (c.setC a.toNat ((c.kVal x.toNat).setWidth 64))) s

/-- The offset of CSRR and CSRW is a multiple of 8 below 0x1000 (R99). -/
def csrOk (imm : W32) : Bool := imm.toNat < 0x1000 && imm.toNat % 8 == 0

/-- CSRR (R98, R99, R129): reads the value in effect, with no side effect. -/
def execCsrr (g : Nat) (a : BitVec 5) (imm : W32) (s : State) : Out :=
  let w := encI 0x70 a 0#5 imm
  issue g w (fun s =>
    let c := s.core g
    if csrOk imm then s.finish g (c.setC a.toNat (s.coreView g imm.toNat))
    else s.seqFault g fkIllegal w 0#64) s

/-- Remove the head precision record (R90, R91). -/
def State.pwPop (s : State) (g : Nat) : State :=
  s.updCore g (fun c => { c with mac := { c.mac with pw := c.mac.pw.tail } })

/-- A reserved owner code leaves OWNER unchanged (R193). -/
def ownerWord (cur v : W64) : W64 := if 5 < bits v 3 0 then setBits v 3 0 (bits cur 3 0) else v

/-- The counters k(4·i) to k(4·i + 3) from a KCNT word, and the register CREG_SEL names from CREG_DATA, as
firmware writes them into an idle core (R130, R131). -/
def Core.restoreWord (c : Core) (off sel : Nat) (v : W64) : Core :=
  if off == 0x4D0 then c.setC sel v
  else
    let i := (off - 0x448) / 8 * 4
    { c with k := (((c.k.set i (BitVec.ofNat 16 (bits v 15 0))).set (i + 1) (BitVec.ofNat 16 (bits v 31 16))).set
        (i + 2) (BitVec.ofNat 16 (bits v 47 32))).set (i + 3) (BitVec.ofNat 16 (bits v 63 48)) }

/-- KCNT0–KCNT3 and CREG_DATA show the core's own counters and registers. -/
def restoreOff (off : Nat) : Bool := (0x448 ≤ off && off < 0x468) || off == 0x4D0

/-- A write to a register of a core's page that a program may make, and the effects a program may trigger:
OWNER (R193, R194), PW_POP (R90) and EDGE_SMAP (R165). `fw` for firmware; `sel` picks the fields written. -/
def State.coreWriteSel (s : State) (g off : Nat) (v : W64) (fw : Bool) (sel : RegDef → RegDef) : State × Bool :=
  match findReg coreRegs off with
  | none => (s, false)
  | some d =>
    let v := if 0x700 ≤ off && off < 0x7C0 then ownerWord (s.reg (corePage g + off) d.reset) v else v
    let idle := s.coreIdle g
    let s := if restoreOff off then s.setReg (corePage g + off) (s.coreView g off) else s
    let s := s.setReg (corePage g + off) (s.reg (corePage g + off) d.reset)
    let r := s.writeReg (corePage g) (sel d) v fw idle
    let s := if r.2 then r.1.lockedDrop g off else r.1
    let s := if fw && idle && restoreOff off then
        s.updCore g (fun c => c.restoreWord off (s.fld (corePage g) CREG_SEL_W) v)
      else s
    let s := if off == 0x190 && bit v 0 && !(sel d).fields.isEmpty then s.pwPop g else s
    let s := if off == 0x618 then s.updCore g (fun c => { c with edge := { c.edge with mapCache := [] } }) else s
    (s, r.2)

def State.coreWrite (s : State) (g off : Nat) (v : W64) (fw : Bool) : State × Bool :=
  s.coreWriteSel g off v fw (fun d => d)

/-- Only the bits a mask selects, each as a field of its own (R304). -/
def RegDef.pick (mask : W64) (d : RegDef) : RegDef :=
  { d with fields := d.fields.flatMap (fun f =>
      ((List.range (f.hi + 1 - f.lo)).filter (fun i => bit mask (f.lo + i))).map (fun i =>
        { f with hi := f.lo + i, lo := f.lo + i, rst := f.rst / 2 ^ i % 2 })) }

/-- CSRW (R98, R99, R129). -/
def execCsrw (g : Nat) (b : BitVec 5) (imm : W32) (s : State) : Out :=
  let w := encI 0x71 0#5 b imm
  issue g w (fun s =>
    let c := s.core g
    if csrOk imm then
      let s := (s.coreWrite g imm.toNat (c.reg b.toNat) false).1
      s.finish g (s.core g)
    else s.seqFault g fkIllegal w 0#64) s

/-- A reserved opcode or a non-zero unused field is an illegal instruction (R97, R99); a legal word is not
this command. -/
def execReservedOpcode (g : Nat) (w : W64) (s : State) : Out :=
  issue g w (fun s => if legalWord w then s else s.seqFault g fkIllegal w 0#64) s

end Sys2Proof.Machine
end

