-- ==== Sys2Proof/Machine/Edge.lean ====
section
/-! DEFINITION. The edge engine (R162–R188): checks of its descriptors, walking, sampling, duplicate removal, sets,
segment masks, histograms and sorting, and the start and end of gathers and scatters. -/

namespace Sys2Proof.Machine

def edParam (d : Quad) (hi lo : Nat) : Nat := bits d.w3 hi lo
/-- CAP, in PARAM [31:0]. -/
def edCap (d : Quad) : Nat := bits d.w3 31 0
/-- INDEX or TMP, in PARAM [63:41]. -/
def edIndex (d : Quad) : Nat := bits d.w3 63 41
def edFlag (d : Quad) (i : Nat) : Bool := edFl d / 2 ^ i % 2 == 1
/-- Bytes of an identifier or key (R163, R183). -/
def edW (d : Quad) : Nat := if edIw d then 8 else 4

/-- The descriptor's fields are valid (R170, R171); `keyset` is EDGE_STATUS.KEYSET. -/
def edValid (d : Quad) (keyset : Bool) : Bool :=
  let op := edOp d
  let fl := edFl d
  let p := d.w3
  let in1 := edIn1 d == 0
  let out0 := edOut0 d == 0
  let out1 := edOut1 d == 0
  let iw := !edIw d
  let pitch := bits p 57 52
  let ares := op ≥ 3 && op ≤ 5 && fl % 2 == 1
  let rows := bits p 51 0 == 0 && edRowW d != 0 && (pitch == 0 || edRowW d ≤ pitch)
  bits d.w0 35 32 == 0 && bits d.w2 17 0 == 0
  && (if ares then edCount d == 0 && keyset else edCount d != 0)
  && edCount d ≤ (if op == 0xA then 65536 else 1048576)
  && (match op with
  | 0x0 => iw && bits p 40 32 == 0 && !(edFlag d 2 && !edFlag d 1)
  | 0x1 => fl < 2 && in1 && out1 && rows
  | 0x2 => fl < 2 && in1 && bits p 63 32 == 0
  | 0x3 | 0x4 | 0x5 => iw && out1
  | 0x6 => iw && (fl == 0 || fl == 2)
  | 0x7 => iw && fl == 0 && in1 && bits p 63 35 == 0 && bits p 31 0 == 0 && bits p 34 32 ≤ 4
  | 0x8 => fl < 2 && out0 && out1 && rows
  | 0x9 => iw && fl < 2 && in1 && out1 && bits p 63 41 == 0 && bits p 31 0 == 0
      && 1 ≤ bits p 35 32 && bits p 35 32 ≤ 12
  | 0xA => fl < 4 && bits p 40 0 == 0
  | _ => false)

/-- Regions whose extent the descriptor alone fixes (R171), as (start, bytes). -/
def edRegions (d : Quad) : List (Nat × Nat) :=
  let n := edCount d
  let w := edW d
  [(edRes d, 8)] ++
  (match edOp d with
  | 0x0 | 0x6 => [(edIn0 d, 4 * n)]
  | 0x1 => [(edIn0 d, w * n), (edOut0 d, edPitch d * (n - 1) + 32 * edRowW d)]
  | 0x2 => [(edIn0 d, w * n)] ++ (if edFl d == 1 then [(edOut1 d, 4 * n)] else [])
  | 0x3 | 0x4 | 0x5 => [(edIn0 d, 4 * n), (edIn1 d, 4 * edParam d 63 32)]
  | 0x7 => [(edIn0 d, 4 * n), (edOut1 d, 4 * n)]
  | 0x8 => [(edIn0 d, w * n), (edIn1 d, edPitch d * (n - 1) + 32 * edRowW d)]
  | 0x9 => [(edIn0 d, 4 * n), (edOut0 d, 4 * 2 ^ edParam d 35 32)]
  | _ =>
    [(edIn0 d, w * n), (edOut0 d, w * n)]
      ++ (if edFlag d 0 then [(edIn1 d, 4 * n), (edOut1 d, 4 * n)] else [])
      ++ (if 4096 < n then [(edIndex d, n * (w + (if edFlag d 0 then 4 else 0)))] else []))

/-- Check a descriptor as it leaves the queue (R106, R171). -/
def edgeCheck (w : Work) (d : Quad) : Eng Unit := do
  let s ← get
  w.require (edValid d (s.core w.g).edge.keyset.isSome)
  (edRegions d).forM (fun r => w.region r.1 r.2)

/-- Write the result word (R168). -/
def edgeResult (w : Work) (d : Quad) (consumed produced : Nat) : Eng Unit :=
  w.write (edRes d) 8 (produced % 2 ^ 32 + consumed * 2 ^ 32)

/-- The value of an unstated field: the next free value (log entry 3). -/
def freeVal : Eng W64 := fun s => .ok (Config.freeW64 s.free, { s with free := s.free + 1 })

/-- Take the descriptor at the head of the edge queue when it is the one a row names, or when its operation is
reserved: check it, run it and advance its counter. -/
def edgeRow (g op : Nat) (f : Work → Quad → Eng (Nat × Nat)) (s : State) : Out :=
  onSite g (fun s =>
    match (s.core g).edge.q with
    | [] => s
    | e :: r =>
      let idle := (s.core g).edge.ops.all (fun o => o.todo.isEmpty && o.next == edCount o.q.d)
      if (s.core g).enginesRun && idle && (edOp e.d == op || 0xB ≤ edOp e.d) then
        let w := e.edge g
        Eng.go (do
          edgeCheck w e.d
          let p ← f w e.d
          edgeResult w e.d p.1 p.2
          modify (fun s => s.updEdge g (fun x => { x with q := r }))
          w.count (edKc e.d)) s
      else s) s

/-- How far an operation with a limit has come: elements consumed and produced, and whether it has stopped. -/
structure Prog where
  used : Nat
  made : Nat
  stop : Bool

/-- Go through inputs 0 to n − 1 until one stops it; a CAP of 0 writes nothing and stops before the first (R168). -/
def Prog.run (cap n : Nat) (f : Nat → Prog → Eng Prog) : Eng Prog :=
  (List.range n).foldlM (fun p i => if p.stop then pure p else f i p) ⟨0, 0, cap == 0⟩

/-- Offsets of frontier vertex v (R166, R172): none for an index at or above the shard's rows, which is counted. -/
def walkOffsets (w : Work) (d : Quad) (i : Nat) : Eng (Option (Nat × Nat)) := do
  let v ← w.read (edIn0 d + 4 * i) 4
  let e ← shardEntry w (edShard d)
  if v < shardRows e then
    let a ← w.read (edIn1 d + 4 * v) 4
    let b ← w.read (edIn1 d + 4 * v + 4) 4
    pure (some (a, b - a))
  else do
    edgeBad w.g
    pure none

/-- Neighbours that index entries a to a + n − 1 stand for, with blocks expanded in ascending bit order (R166). -/
def walkEntries (w : Work) (d : Quad) (z a n : Nat) (blocked : Bool) : Eng (List Nat) := do
  let l ← (List.range n).mapM (fun i => w.read (edIndex d + z * (a + i)) z)
  pure (if blocked then
      l.flatMap (fun b => ((List.range 16).filter (fun i => b / 2 ^ (48 + i) % 2 == 1)).map (fun i => b % 2 ^ 48 + i))
    else l)

/-- WALK (R172). -/
def edgeWalk (w : Work) (d : Quad) : Eng (Nat × Nat) := do
  let z := if edFlag d 1 then 8 else 4
  let p ← Prog.run (edCap d) (edCount d) (fun i p => do
    if edFlag d 0 then
      let o ← walkOffsets w d i
      let l ← match o with
        | some (a, n) =>
          if !edFlag d 2 && edCap d < p.made + n then pure (List.replicate n 0) else walkEntries w d z a n (edFlag d 2)
        | none => pure []
      if edCap d < p.made + l.length then pure { p with stop := true }
      else
        (List.range l.length).forM (fun j => w.write (edOut0 d + z * (p.made + j)) z (l.getD j 0))
        w.write (edOut1 d + 4 * i) 4 l.length
        pure { p with used := p.used + 1, made := p.made + l.length }
    else if edCap d < p.made + 1 then pure { p with stop := true }
    else
      let o ← walkOffsets w d i
      let v ← match o with
        | some (a, n) => pure (a + n * 2 ^ 32)
        | none => do
          let f ← freeVal
          pure (f.toNat % 2 ^ 32)
      w.write (edOut0 d + 8 * p.made) 8 v
      pure { p with used := p.used + 1, made := p.made + 1 })
  pure (p.used, p.made)

def execWalk (g : Nat) (s : State) : Out := edgeRow g 0x0 edgeWalk s

/-- The next 64-bit draw of the edge generator (R51, R173). -/
def edgeDraw (g : Nat) : Eng Nat := do
  let s ← get
  let y := xorshift (s.core g).edge.gen
  set (s.updEdge g (fun x => { x with gen := y }))
  pure y.toNat

/-- Positions chosen among n, at most k, in ascending order (R173). -/
def samplePositions (g n k : Nat) : Eng (List Nat) :=
  if n ≤ k then pure (List.range n)
  else
    (List.range k).foldlM (fun l i => do
      let j := n - k + i
      let t ← edgeDraw g
      let t := t % (j + 1)
      pure (setIns l (if l.contains t then j else t))) []

/-- SAMPLE (R173). -/
def edgeSample (w : Work) (d : Quad) : Eng (Nat × Nat) := do
  let z := if edFlag d 1 then 8 else 4
  let k := edParam d 40 32 + 1
  let p ← Prog.run (edCap d) (edCount d) (fun i p => do
    let o ← walkOffsets w d i
    let a := (o.map (·.1)).getD 0
    let n := (o.map (·.2)).getD 0
    if edCap d < p.made + min n k then pure { p with stop := true }
    else
      let l ← samplePositions w.g n k
      (List.range l.length).forM (fun j => do
        let v ← w.read (edIndex d + z * (a + l.getD j 0)) z
        w.write (edOut0 d + z * (p.made + j)) z v)
      w.write (edOut1 d + 4 * i) 4 l.length
      pure { p with used := p.used + 1, made := p.made + l.length })
  pure (p.used, p.made)

def execSample (g : Nat) (s : State) : Out := edgeRow g 0x6 edgeSample s

def setKeyset (g : Nat) (k : Option (List Nat)) : Eng Unit :=
  modify (fun s => s.updEdge g (fun x => { x with keyset := k }))

/-- DEDUP (R177): the window is the last 4,096 identifiers written, each with its place in OUT0. -/
def edgeDedup (w : Work) (d : Quad) : Eng (Nat × Nat) := do
  setKeyset w.g none
  let z := edW d
  let r ← (List.range (edCount d)).foldlM (fun (a : Prog × List (Nat × Nat)) i => do
    if a.1.stop then pure a
    else
      let v ← w.read (edIn0 d + z * i) z
      match a.2.find? (fun e => e.1 == v) with
      | some e =>
        if edFl d == 1 then w.write (edOut1 d + 4 * i) 4 e.2 else pure ()
        pure ({ a.1 with used := a.1.used + 1 }, a.2)
      | none =>
        if edCap d < a.1.made + 1 then pure ({ a.1 with stop := true }, a.2)
        else
          w.write (edOut0 d + z * a.1.made) z v
          if edFl d == 1 then w.write (edOut1 d + 4 * i) 4 a.1.made else pure ()
          pure ({ a.1 with used := a.1.used + 1, made := a.1.made + 1 }, ((v, a.1.made) :: a.2).take 4096))
    ((⟨0, 0, false⟩ : Prog), ([] : List (Nat × Nat)))
  pure (r.1.used, r.1.made)

def execDedup (g : Nat) (s : State) : Out := edgeRow g 0x2 edgeDedup s

/-- One input of a set operation (R178): the next element to fetch, how many there are, the element held for
comparison, and the last element kept. -/
structure SetIn where
  i : Nat
  n : Nat
  head : Option Nat
  last : Option Nat

/-- Fetch until an element stands in the head or the input ends; an element not greater than the one kept before
it is skipped and counted. -/
def SetIn.fetch (g : Nat) (get : Nat → Eng Nat) (fuel : Nat) (x : SetIn) : Eng SetIn :=
  match fuel with
  | 0 => pure x
  | k + 1 =>
    if x.head.isSome || x.n ≤ x.i then pure x
    else do
      let v ← get x.i
      let y := { x with i := x.i + 1 }
      match x.last with
      | some l =>
        if v ≤ l then do
          modify (fun s => s.addSat (corePage g) EDGE_EVENTS_UNSORTED 1)
          SetIn.fetch g get k y
        else pure { y with head := some v, last := some v }
      | none => pure { y with head := some v, last := some v }

/-- Elements of an input that have been processed. -/
def SetIn.used (x : SetIn) : Nat := if x.head.isSome then x.i - 1 else x.i

/-- Merge two sets: 0x3 intersection, 0x4 union, 0x5 difference; stops before the output passes `cap` (R168,
R178). The result is in descending order. -/
def setMerge (g op : Nat) (ga gb : Nat → Eng Nat) (cap : Option Nat) (fuel : Nat) (a b : SetIn) (out : List Nat)
    (n : Nat) : Eng (List Nat × Nat) :=
  match fuel with
  | 0 => pure (out, a.used + b.used)
  | k + 1 => do
    let a ← a.fetch g ga (a.n + 1)
    let b ← b.fetch g gb (b.n + 1)
    let step := fun (v : Nat) (emit : Bool) (a b : SetIn) (a' b' : SetIn) =>
      if emit && (match cap with | some c => c < n + 1 | none => false) then pure (out, a.used + b.used)
      else setMerge g op ga gb cap k a' b' (if emit then v :: out else out) (if emit then n + 1 else n)
    match a.head, b.head with
    | none, none => pure (out, a.used + b.used)
    | some x, none => step x (op != 3) a b { a with head := none } b
    | none, some y => step y (op == 4) a b a { b with head := none }
    | some x, some y =>
      if x < y then step x (op != 3) a b { a with head := none } b
      else if y < x then step y (op == 4) a b a { b with head := none }
      else step x (op != 5) a b { a with head := none } { b with head := none }

/-- ISECT, UNION and DIFF (R178, R179). -/
def edgeSet (op : Nat) (w : Work) (d : Quad) : Eng (Nat × Nat) := do
  let s ← get
  let held := ((s.core w.g).edge.keyset).getD []
  let ares := edFlag d 0
  let keep := edFlag d 1 && !edFlag d 2
  let nb := edParam d 63 32
  let na := if ares then held.length else edCount d
  let cap := if edFlag d 2 then none else some (if keep then min (edCap d) 4096 else edCap d)
  let ga := fun i => if ares then pure (held.getD i 0) else w.read (edIn0 d + 4 * i) 4
  let gb := fun i => w.read (edIn1 d + 4 * i) 4
  let r ← setMerge w.g op ga gb cap (na + nb + 1) ⟨0, na, none, none⟩ ⟨0, nb, none, none⟩ [] 0
  let l := r.1.reverse
  if keep then setKeyset w.g (some l)
  else if edFlag d 2 then pure ()
  else (List.range l.length).forM (fun i => w.write (edOut0 d + 4 * i) 4 (l.getD i 0))
  pure (r.2, l.length)

def execIsect (g : Nat) (s : State) : Out := edgeRow g 0x3 (edgeSet 3) s
def execUnion (g : Nat) (s : State) : Out := edgeRow g 0x4 (edgeSet 4) s
def execDiff (g : Nat) (s : State) : Out := edgeRow g 0x5 (edgeSet 5) s

/-- SEGMASK (R180). -/
def edgeSegmask (w : Work) (d : Quad) : Eng (Nat × Nat) := do
  let u := match edParam d 34 32 with | 0 => 16 | 1 => 32 | 2 => 256 | 3 => 512 | _ => 1024
  let z := max 8 (u / 8)
  let r ← (List.range (edCount d)).foldlM (fun (a : Nat × List Nat) i => do
    let n ← w.read (edIn0 d + 4 * i) 4
    if n == 0 then
      w.write (edOut1 d + 4 * i) 4 0xFFFFFFFF
      pure a
    else
      w.write (edOut1 d + 4 * i) 4 (a.1 + n - 1)
      pure (a.1 + n, (a.1 + n - 1) :: a.2)) (0, [])
  let images := (r.1 + u - 1) / u
  if images == 0 then pure () else w.region (edOut0 d) (128 * (images - 1) + z)
  (List.range images).forM (fun j =>
    w.write (edOut0 d + 128 * j) z
      ((r.2.filter (fun e => e / u == j)).foldl (fun m e => m + 2 ^ (e % u)) 0))
  pure (edCount d, images)

def execSegmask (g : Nat) (s : State) : Out := edgeRow g 0x7 edgeSegmask s

/-- HIST (R182). -/
def edgeHist (w : Work) (d : Quad) : Eng (Nat × Nat) := do
  setKeyset w.g none
  let nb := 2 ^ edParam d 35 32
  let start ← if edFl d == 1 then (List.range nb).mapM (fun i => w.read (edOut0 d + 4 * i) 4) else pure []
  let t ← (List.range (edCount d)).foldlM (fun (t : Tab Nat) i => do
    let k ← w.read (edIn0 d + 4 * i) 4
    let b := k / 2 ^ edParam d 40 36 % nb
    pure (t.set b (t.getD b 0 + 1))) []
  (List.range nb).forM (fun i => w.write (edOut0 d + 4 * i) 4 (min 0xFFFFFFFF (start.getD i 0 + t.getD i 0)))
  pure (edCount d, nb)

def execHist (g : Nat) (s : State) : Out := edgeRow g 0x9 edgeHist s

/-- SORT (R183). What a longer sort leaves in TMP is open: free values (log entry 3). -/
def edgeSort (w : Work) (d : Quad) : Eng (Nat × Nat) := do
  setKeyset w.g none
  let n := edCount d
  let z := edW d
  let pl := edFlag d 0
  let keys ← (List.range n).mapM (fun i => do
    let k ← w.read (edIn0 d + z * i) z
    let v ← if pl then w.read (edIn1 d + 4 * i) 4 else pure 0
    pure (k, v))
  if 4096 < n then
    let m := n * (z + (if pl then 4 else 0))
    (List.range ((m + 7) / 8)).forM (fun i => do
      let f ← freeVal
      w.write (edIndex d + 8 * i) (min 8 (m - 8 * i)) f.toNat)
  else pure ()
  let l := keys.mergeSort (fun a b => if edFlag d 1 then b.1 ≤ a.1 else a.1 ≤ b.1)
  (List.range n).forM (fun i => do
    w.write (edOut0 d + z * i) z ((l.getD i (0, 0)).1)
    if pl then w.write (edOut1 d + 4 * i) 4 ((l.getD i (0, 0)).2) else pure ())
  pure (n, n)

def execSort (g : Nat) (s : State) : Out := edgeRow g 0xA edgeSort s

/-- GATHER and SCATTER begin (R174, R181, R186): at most 4 are in flight, and a scatter waits for the gathers
before it. -/
def edgeBegin (g op : Nat) (s : State) : Out :=
  onSite g (fun s =>
    let x := (s.core g).edge
    match x.q with
    | [] => s
    | e :: r =>
      let free := x.ops.all (fun o => o.todo.isEmpty && o.next == edCount o.q.d) && x.ops.length < 4
        && !(op == 8 && x.ops.any (fun o => edOp o.q.d == 1))
      if (s.core g).enginesRun && free && (edOp e.d == op || 0xB ≤ edOp e.d) then
        let s := Eng.go (do
          edgeCheck (e.edge g) e.d
          modify (fun (s : State) => s.updEdge g (fun x =>
            { x with q := r, ops := x.ops ++ [⟨x.nextOp, e, 0, [], 0⟩], nextOp := x.nextOp + 1 }))) s
        s.pump g
      else s) s

def execGather (g : Nat) (s : State) : Out := edgeBegin g 1 s
def execScatter (g : Nat) (s : State) : Out := edgeBegin g 8 s

/-- A gather or scatter has issued everything and nothing of it is outstanding (R176, R181). -/
def State.edgeFinished (s : State) (g : Nat) (o : EdgeOp) : Bool :=
  o.todo.isEmpty && o.next == edCount o.q.d && s.rowsOut g (some o.id) == 0

/-- A gather or scatter completes: its result word is written and its counter advances. -/
def edgeEnd (g op id : Nat) (s : State) : Out :=
  onSite g (fun s =>
    match (s.core g).edge.ops.find? (fun o => o.id == id && edOp o.q.d == op) with
    | none => s
    | some o =>
      if s.edgeFinished g o && ((s.core g).enginesRun || (s.core g).seq == .frozen) then
        let w := o.q.edge g
        Eng.go (do
          edgeResult w o.q.d (edCount o.q.d) o.made
          modify (fun s => s.updEdge g (fun x => { x with ops := x.ops.filter (fun y => y.id != id) }))
          w.count (edKc o.q.d)) s
      else s) s

def execGatherComplete (g op : Nat) (s : State) : Out := edgeEnd g 1 op s
def execScatterComplete (g op : Nat) (s : State) : Out := edgeEnd g 8 op s

/-- EDGE_SMAP_WRITE (R165): any write empties the map cache. -/
def execEdgeSmapWrite (g : Nat) (v : W64) (s : State) : Out :=
  onSite g (fun s => (s.coreWrite g 0x618 v false).1) s

end Sys2Proof.Machine
end

