-- ==== Sys2Proof/Machine/Vmath.lean ====
section
/-! DEFINITION. Numbers of the vector engine: element types (R134), reading and writing elements (R141, R142),
the defined results of R143, correctly rounded division and square root, and the transcendental operations within
the error bounds of R144. -/

namespace Sys2Proof.Machine

/-- Bits of an element, columns and elements of a tile of a type (R134). -/
def vtW (ty : Nat) : Nat := match ty with | 0 | 5 => 32 | 1 | 2 | 6 => 16 | _ => 8
def vtC (ty : Nat) : Nat := match ty with | 0 | 5 => 16 | _ => 32
def vtN (ty : Nat) : Nat := 8192 / vtW ty
def vtR (ty : Nat) : Nat := vtN ty / vtC ty
def vtFloat (ty : Nat) : Bool := ty ≤ 4
def vtFF (ty : Nat) : FF := match ty with | 0 => ffFP32 | 1 => ffBF16 | 2 => ffFP16 | 3 => ffE4M3 | _ => ffE5M2

/-- Read an element code as a number (R141). -/
def vtDec (ty c : Nat) : Dy := if vtFloat ty then (vtFF ty).dec c else Dy.ofInt (sgn c (vtW ty))

/-- A code with −0 written as +0 (R142). -/
def posZero (w c : Nat) : Nat := if c % 2 ^ (w - 1) == 0 then 0 else c

/-- An integer saturated to n bits, as a code (R142). -/
def satInt (n : Nat) (i : Int) : Nat :=
  let hi : Int := 2 ^ (n - 1) - 1
  let lo : Int := -(2 ^ (n - 1))
  ((if hi < i then hi else if i < lo then lo else i) % 2 ^ n).toNat

/-- How VCVT rounds: nearest even, a stochastic draw, or toward zero (R150). -/
inductive VRnd where
  | rne
  | sr (g : Nat)
  | trunc

/-- The integer a value rounds to. -/
def Dy.toInt (v : Dy) (r : VRnd) : Int :=
  let n : Nat := match r with
    | .rne => v.rneTo 0
    | .sr g => v.roundTo 0 (.sr g)
    | .trunc => v.truncTo 0
  if v.m < 0 then -(n : Int) else n

/-- Write a number as an element (R142). -/
def vtEnc (ty : Nat) (v : Dy) (r : VRnd) : Nat :=
  if vtFloat ty then
    posZero (vtW ty) ((vtFF ty).round v (match r with | .sr g => .sr g | _ => .rne)).1
  else satInt (vtW ty) (v.toInt r)

/-- Largest and smallest finite values of a type. -/
def vtMax (ty : Nat) : Dy := if vtFloat ty then (vtFF ty).top else Dy.ofInt (2 ^ (vtW ty - 1) - 1)
def vtMin (ty : Nat) : Dy := if vtFloat ty then (vtFF ty).top.neg else Dy.ofInt (-(2 ^ (vtW ty - 1)))

/-- a ÷ b for b ≠ 0 to more bits than any type keeps, with the last bit set when the quotient is not exact, so
that rounding it rounds the quotient. -/
def Dy.quot (a b : Dy) : Dy :=
  let k := 128 + b.m.natAbs.log2
  let n := a.m.natAbs * 2 ^ k
  let d := b.m.natAbs
  let q := n / d * 2 + (if n % d == 0 then 0 else 1)
  ⟨if (a.m < 0) == (b.m < 0) then (q : Int) else -(q : Int), a.e - b.e - k - 1⟩

/-- Integer square root, by its bits in pairs. -/
def isqrt (fuel n : Nat) : Nat :=
  match fuel with
  | 0 => 0
  | k + 1 =>
    let r := 2 * isqrt k (n / 4)
    if (r + 1) * (r + 1) ≤ n then r + 1 else r

/-- √a for a ≥ 0 in the same form. -/
def Dy.root (a : Dy) : Dy :=
  if a.isZero then a
  else
    let n := a.m.natAbs * 2 ^ (if a.e % 2 == 0 then 256 else 257)
    let r := isqrt (n.log2 / 2 + 1) n
    ⟨r * 2 + (if r * r == n then 0 else 1), (a.e - (if a.e % 2 == 0 then 256 else 257)) / 2 - 1⟩

/-- Fixed-point numbers with p fraction bits. -/
def fxMul (p : Nat) (a b : Int) : Int := a * b / 2 ^ p

def Dy.fx (a : Dy) (p : Nat) : Int :=
  let k := a.e + p
  if 0 ≤ k then a.m * 2 ^ k.toNat else a.m / 2 ^ (-k).toNat

/-- Σ y^(2i+1) ÷ (2i+1) for i < n, with alternating signs when `alt`. -/
def fxOdd (p : Nat) (alt : Bool) (y : Int) (n : Nat) : Int :=
  let y2 := fxMul p y y
  let r := iter n (fun i (a : Int × Int) =>
    let t := a.2 / (2 * i + 1 : Nat)
    (if alt && i % 2 == 1 then a.1 - t else a.1 + t, fxMul p a.2 y2)) (0, y)
  r.1

/-- ln 2, from 2·artanh(1/3), and π by Machin's formula. -/
def fxLn2 (p : Nat) : Int := 2 * fxOdd p false (2 ^ p / 3) p
def fxPi (p : Nat) : Int := 4 * (4 * fxOdd p true (2 ^ p / 5) p - fxOdd p true (2 ^ p / 239) p)

/-- e^x for |x| below 2^12: ln 2 is taken out, and the rest is summed. -/
def expApprox (p : Nat) (x : Dy) : Dy :=
  let l := fxLn2 p
  let f := x.fx p
  let k := f / l
  let r := f - k * l
  let t := iter (p / 2) (fun i (a : Int × Int) =>
    (a.1 + a.2, fxMul p a.2 r / (i + 1 : Nat))) (0, (2 : Int) ^ p)
  ⟨t.1, k - p⟩

def expD (x : Dy) : Dy :=
  if (Dy.ofInt 1000).lt x then ⟨1, 1000⟩
  else if x.lt (Dy.ofInt (-1000)) then ⟨1, -1000⟩
  else expApprox 200 x

/-- ln x for x > 0. -/
def lnD (x : Dy) : Dy :=
  let p := 200
  let e := x.log2
  let m := (x.scale (-e)).fx p
  let big := 3 * 2 ^ (p - 1) < m
  let m := if big then m / 2 else m
  let e := if big then e + 1 else e
  let y := (m - 2 ^ p) * 2 ^ p / (m + 2 ^ p)
  ⟨2 * fxOdd p false y 100 + e * fxLn2 p, -p⟩

def tanhD (x : Dy) : Dy :=
  if x.abs.lt ⟨1, -10⟩ then
    let p := 200
    let t := (x.mul x).fx p
    let t2 := fxMul p t t
    x.mul ⟨2 ^ p - t / 3 + 2 * t2 / 15 - 17 * fxMul p t2 t / 315, -p⟩
  else
    let e := expD ((x.abs).scale 1)
    let r := (e.sub (Dy.ofInt 1)).quot (e.add (Dy.ofInt 1))
    if x.m < 0 then r.neg else r

def sigD (x : Dy) : Dy :=
  let e := expD (x.abs.neg)
  let d := e.add (Dy.ofInt 1)
  if x.m < 0 then e.quot d else (Dy.ofInt 1).quot d

/-- x·Φ(x), with Φ(x) = ½ + φ(x)·(x + x³/3 + x⁵/15 + …). -/
def geluD (x : Dy) : Dy :=
  if (Dy.ofInt 24).lt x then x.sub ⟨1, -400⟩
  else if x.lt (Dy.ofInt (-24)) then ⟨-1, -400⟩
  else
    let p := 1024
    let f := x.fx p
    let f2 := fxMul p f f
    let s := (iter 1600 (fun i (a : Int × Int) =>
      (a.1 + a.2, fxMul p a.2 f2 / (2 * i + 3 : Nat))) (0, f)).1
    let h := expApprox p ⟨-f2, -p - 1⟩
    let c := isqrt (p + 4) (2 * fxPi p * 2 ^ p).toNat
    let phi := fxMul p (h.fx p) s * 2 ^ p / c
    x.mul ⟨2 ^ (p - 1) + phi, -p⟩

/-- Exponent of one ulp of a type at a value; below the smallest normal value, of the smallest normal (R144). -/
def ulpAt (f : FF) (v : Dy) : Int := if v.isZero then 1 - f.bias - f.mb else max (1 - f.bias - f.mb) (v.log2 - f.mb)

/-- The finite value with a signed index: codes of a format in the order of their magnitudes, with the sign. -/
def FF.nth (f : FF) (k : Int) : Dy := let v := f.dec k.natAbs; if k < 0 then v.neg else v

/-- A result within n ulp of y (R144), saturated at the largest finite value (R143): of the values that the
bound allows, the one that the part gives is open (log entry 3). -/
def vtWithin (op ty code n : Nat) (y : Dy) : Nat :=
  let f := vtFF ty
  if f.top.le y then (vtEnc ty f.top .rne)
  else
    let c := (f.round y.abs .rne).1
    let c0 : Int := if y.m < 0 then -(c : Int) else c
    let tol : Dy := ⟨n, ulpAt f y⟩
    let topc : Nat := (f.round f.top .rne).1
    let ks := ((List.range (4 * n + 9)).map (fun i => c0 - (2 * n + 4 : Nat) + (i : Nat))).filter
      (fun k => k.natAbs ≤ topc && ((f.nth k).sub y).abs.le tol)
    let k := ks.getD (Config.ulpPick (16 * op + ty) (BitVec.ofNat 32 code) % max 1 ks.length) c0
    if k < 0 then 2 ^ (vtW ty - 1) + k.natAbs else k.natAbs

/-- ulps of R144: for FP32, and for the narrower types. -/
def vtUlps (op ty : Nat) : Nat :=
  if ty != 0 then 1
  else match op with
  | 0xD2 => 1
  | 0xD7 => 3
  | 0xD8 => 4
  | _ => 2

/-- VSQRT to VGELU on one element of a floating type (R143, R144). -/
def vtFun (op ty code : Nat) : Nat :=
  let x := vtDec ty code
  let top := vtEnc ty (vtMax ty) .rne
  let within := fun y => vtWithin op ty code (vtUlps op ty) y
  match op with
  | 0xD1 => if x.m ≤ 0 then 0 else vtEnc ty x.root .rne
  | 0xD2 => if x.isZero then top else within ((Dy.ofInt 1).quot x)
  | 0xD3 => if x.m < 0 then 0 else if x.isZero then top else within ((Dy.ofInt 1).quot x.root)
  | 0xD4 =>
    let y := expD x
    if y.lt ⟨1, 0 - (vtFF ty).bias - (vtFF ty).mb⟩ then 0 else within y
  | 0xD5 =>
    if x.m < 0 then 0
    else if x.isZero then vtEnc ty (vtMin ty) .rne
    else within (lnD x)
  | 0xD6 => within (tanhD x)
  | 0xD7 => within (sigD x)
  | _ => within (geluD x)

/-- Division (R143). -/
def vtDiv (ty : Nat) (x y : Dy) : Dy :=
  if vtFloat ty then
    if y.isZero then (if x.isZero then Dy.zero else if x.m < 0 then vtMin ty else vtMax ty) else x.quot y
  else if y.isZero then (if x.isZero then Dy.zero else if x.m < 0 then vtMin ty else vtMax ty)
  else Dy.ofInt ((x.at 0).tdiv (y.at 0))

def Dy.minD (a b : Dy) : Dy := if b.lt a then b else a

/-- The exact result of an arithmetic operation on the values read (R139, R143). -/
def vtArith (op ty : Nat) (x y z : Dy) : Dy :=
  match op with
  | 0xC8 => x.add y
  | 0xC9 => x.sub y
  | 0xCA => x.mul y
  | 0xCB => (x.mul y).add z
  | 0xCC => vtDiv ty x y
  | 0xCD => Dy.minD x y
  | 0xCE => Dy.maxD x y
  | 0xCF => x.abs
  | _ => x.neg

/-- Logic and shifts on codes of w bits (R139, R143). -/
def vtLogic (op w x y : Nat) : Nat :=
  match op with
  | 0xDB => Nat.land x y
  | 0xDC => Nat.lor x y
  | 0xDD => Nat.xor x y
  | 0xDE => 2 ^ w - 1 - x
  | 0xDF => if w ≤ y then 0 else x * 2 ^ y % 2 ^ w
  | 0xE0 => if w ≤ y then 0 else x / 2 ^ y
  | _ =>
    let s := sgn x w
    ((if w ≤ y then (if s < 0 then -1 else 0) else s / 2 ^ y) % 2 ^ w).toNat

/-- Predicates of VCMP (R139). -/
def vtCmp (p : Nat) (x y : Dy) : Bool :=
  match p with
  | 0 => x.eqv y
  | 1 => !x.eqv y
  | 2 => x.lt y
  | 3 => x.le y
  | 4 => y.lt x
  | _ => y.le x

end Sys2Proof.Machine
end

