-- ==== Sys2Proof/Machine/Vector.lean ====
section
/-! DEFINITION. The vector engine (R133–R161): issue into its queue, the check of an instruction taken from it, the
memory pipe, and the operations of the compute pipe. A row runs one repeat of the instruction it names (R137, R161). -/

namespace Sys2Proof.Machine

/-- Packed bytes of a source tile under VQNT and VDQNT (R151). -/
def vqP (w : W64) : Nat := vtN (vTy w) * fmWidth (vIMM w % 16) / 8

/-- The fields an instruction accepts (R136, R137, R140): reserved values and unused fields, tile numbers above 31
in any repeat, predication and scalars where they are not allowed. -/
def vecLegal (w : W64) : Bool :=
  let op := wOp w
  let td := vTD w
  let ta := vTA w
  let tb := vTB w
  let tc := vTC w
  let ty := vTy w
  let i := vIMM w
  let rep := vREP w
  let t := fun r => r + rep ≤ 31
  let mem := ta / 8 % 2 == 0 && tc == 0 && !vSCAL w
  let noM := !vMEN w
  -- operations that read MK as an operand
  let mk := op == 0xDA || op == 0xE6 || op == 0xE7 || op == 0xE9
  let un := t td && t ta && tb == 0 && tc == 0 && !vSCAL w
  let tB := if vSCAL w then true else t tb
  let bin := t td && t ta && tB && tc == 0 && i == 0
  let flt := vtFloat ty
  ty < 8 && (vKEN w || vKC w == 0) && (vMEN w || mk || vMK w == 0) &&
  (match op with
  | 0xC0 | 0xC1 => mem && t td && tb == 0
  | 0xC2 | 0xC3 => mem && t tb && td == 0
  | 0xC4 => mem && td < 8 && tb == 0 && noM && rep == 0
  | 0xC5 => mem && tb < 8 && td == 0 && noM && rep == 0
  | 0xC6 => mem && td < 8 && tb == 0 && noM && rep == 0
  | 0xC7 => un && i == 0
  | 0xC8 | 0xC9 | 0xCA | 0xCC | 0xCD | 0xCE => bin
  | 0xCB => t td && t ta && tB && t tc && i == 0
  | 0xCF | 0xD0 => un && i == 0
  | 0xD1 | 0xD2 | 0xD3 | 0xD4 | 0xD5 | 0xD6 | 0xD7 | 0xD8 => un && i == 0 && flt
  | 0xD9 => td < 8 && t ta && tB && tc == 0 && i < 6 && rep == 0
  | 0xDA => t td && t ta && t tb && tc == 0 && i == 0 && noM && !vSCAL w
  | 0xDB | 0xDC | 0xDD | 0xDF | 0xE0 | 0xE1 => bin && !flt
  | 0xDE => un && i == 0 && !flt
  | 0xE2 => td < 8 && (if i < 5 then ta < 8 else ta == 0) && (if i < 4 then tb < 8 else tb == 0) && tc == 0 && i < 7
      && noM && !vSCAL w && rep == 0
  | 0xE3 => t td && ta == 0 && tb == 0 && tc == 0 && !vSCAL w && i == 0 && !flt
  | 0xE4 => un && i == 0 && noM
  | 0xE5 => un && i < 8 && i / 2 < 3
  | 0xE6 | 0xE7 => un && i < 32 && i / 8 < 3 && noM && rep == 0
  | 0xE8 => t td && t ta && i < 8 && noM && !vSCAL w && (if i / 4 == 1 then t tb && t tc else tb == 0 && tc == 0)
  | 0xE9 => un && i < 2 && noM
  | 0xEA =>
    let o := i % 16
    un && i < 256 && o < 8 &&
      i / 64 < (if vtN ty == vtN o then 1 else if vtN o < vtN ty then vtN ty / vtN o else vtN o / vtN ty)
  | 0xEB => t ta && tb == 0 && tc == 0 && !vSCAL w && noM && ty < 3 && i % 16 < 5 && i < 2048
      && i / 64 % 32 != td && (rep + 1) * vqP w ≤ 1024
  | 0xEC => t td && tc == 0 && !vSCAL w && noM && ty < 3 && i < 5 && (rep + 1) * vqP w ≤ 1024
  | 0xED => !vSCAL w && rep == 0 && i / 2 ^ 15 < 8 && vtW (i / 2 ^ 15) ≤ vtW ty
      && (i / 2 ^ 13 % 2 == 1 || i % 32 == 0) && (i / 2 ^ 14 % 2 == 1 || i / 32 % 32 == 0)
  | 0xEE => td == 0 && ta == 0 && tb == 0 && tc == 0 && noM && !vSCAL w && rep == 0 && i == 0
  | _ => false)

/-- Registers of the vector engine. -/
def Vec.tile (v : Vec) (i : Nat) : TileW := v.t.getD i 0#8192
def Vec.mask (v : Vec) (i : Nat) : W1024 := v.m.getD i 0#1024
def Vec.setTile (v : Vec) (i : Nat) (x : TileW) : Vec := { v with t := v.t.set i x }
def Vec.setMask (v : Vec) (i : Nat) (x : W1024) : Vec := { v with m := v.m.set i x }
def State.vec (s : State) (g : Nat) : Vec := (s.core g).vec
def State.setVec (s : State) (g : Nat) (v : Vec) : State := s.updCore g (fun c => { c with vec := v })

/-- Element e of a tile of w-bit elements. -/
def elemAt (w : Nat) (x : TileW) (e : Nat) : Nat := x.toNat / 2 ^ (w * e) % 2 ^ w

/-- A tile from its element codes. -/
def packTile (w : Nat) (l : List Nat) : TileW := BitVec.ofNat 8192 (packBits w l)

/-- The element is written (R145). -/
def vOn (w : W64) (v : Vec) (e : Nat) : Bool := !vMEN w || (v.mask (vMK w)).getLsbD e

/-- Replace the elements of a tile register for which `on` holds. -/
def Vec.put (v : Vec) (i w n : Nat) (on : Nat → Bool) (f : Nat → Nat) : Vec :=
  let old := v.tile i
  v.setTile i (packTile w ((List.range n).map (fun e => if on e then f e else elemAt w old e)))

/-- Repeat i of an element-wise instruction: `f` gives the code of element e from those of the three sources (R137,
R145). -/
def Vec.each (v : Vec) (w : W64) (i : Nat) (f : Nat → Nat → Nat → Nat → Nat) : Vec :=
  let b := vtW (vTy w)
  let x := v.tile (vTA w + i)
  let y := v.tile (if vSCAL w then vTB w else vTB w + i)
  let z := v.tile (vTC w + i)
  v.put (vTD w + i) b (vtN (vTy w)) (vOn w v) (fun e =>
    f e (elemAt b x e) (elemAt b y (if vSCAL w then 0 else e)) (elemAt b z e))

/-- Queue a vector instruction with the address VADDR gives it (R138). An advance by POST that leaves the 23 bits of ADDR
wraps (DESIGN CHOICE, log entry 65). -/
def State.vecPush (s : State) (g : Nat) (w : W64) : State :=
  let bp := corePage g
  let k := vTA w % 8
  let mem := vecMemOp w
  let addr : Int := s.fld bp (VADDR_ADDR k)
  let post := vTA w / 16 == 1
  let e : VEntry := ⟨w, if mem then (if post then addr else addr + vOff w) else 0,
    if mem then s.fld bp (VADDR_PITCH k) else 0, (s.core g).pc, 0⟩
  let s := if mem && post then s.setFld bp (VADDR_ADDR k) ((addr + vOff w) % 2 ^ 23).toNat else s
  let c := s.core g
  s.finish g { c with vec := { c.vec with q := c.vec.q ++ [e] } }

/-- The vector queue holds its usable number of entries (R102, R160). -/
def State.vecFull (s : State) (g : Nat) : Bool := s.fld (corePage g) VEC_CFG_QDEPTH < (s.vec g).pending

/-- VECTOR_ISSUE (R97, R102, R138): a word whose opcode lies below 0xC0 is not this command. -/
def execVectorIssue (g : Nat) (w : W64) (s : State) : Out :=
  if wOp w < 0xC0 then onSite g (fun s => s) s
  else issue g w (fun s => if s.vecFull g then s.stallAt g (.queueFull engVec w) else s.vecPush g w) s

/-- The work of an entry of the vector queue. -/
def VEntry.work (e : VEntry) (g : Nat) : Work := ⟨g, engVec, ownVec, e.pc, e.w, 0#32, 0⟩

/-- The entry that a row takes: the first one that may start and has the row's opcode. A reserved opcode that may start is
taken, and faults, by any row. -/
def Vec.nextFor (v : Vec) (op : Nat) : Option (Nat × VEntry) :=
  ((List.range v.q.length).filterMap (fun i => (v.q[i]?).map (fun e => (i, e)))).find? (fun p =>
    v.mayStart p.1 && (vOp p.2.w == op || 0xEF ≤ vOp p.2.w))

/-- Instructions at the head of the queue that have finished leave it, and their counters advance in program order (R104,
R158). -/
def vecRetire (g : Nat) : Eng Unit := do
  let s ← get
  let l := (s.vec g).q.takeWhile VEntry.done
  modify (fun s => s.setVec g { s.vec g with q := (s.vec g).q.dropWhile VEntry.done })
  l.forM (fun e => do
    let s ← get
    if vKEN e.w && (s.core g).enginesRun then (e.work g).count (vKC e.w) else pure ())

/-- Run one repeat of the instruction that a row names: it is checked when it is taken (R137), runs, and retires once it and
every earlier one have finished. -/
def vecRow (g op : Nat) (f : Work → VEntry → Eng Unit) (s : State) : Out :=
  onSite g (fun s =>
    match (s.vec g).nextFor op with
    | none => s
    | some (i, e) =>
      if (s.core g).enginesRun then
        Eng.go (do
          (e.work g).require (0 < e.reps || vecLegal e.w)
          f (e.work g) e
          modify (fun s => s.setVec g { s.vec g with q := (s.vec g).q.set i { e with reps := e.reps + 1 } })
          vecRetire g) s
      else s) s

/-- An instruction of the compute pipe: what repeat i of it does to the engine's registers. -/
def vecOp (g op : Nat) (f : W64 → Nat → Vec → Vec) (s : State) : Out :=
  vecRow g op (fun _ e => modify (fun s => s.setVec g (f e.w e.reps (s.vec g)))) s

/-- A region resolved by VADDR must lie in the scratchpad (R138). -/
def Work.vregion (w : Work) (a : Int) (n : Nat) : Eng Unit :=
  if a < 0 then w.fault fkRange (a % 2 ^ 64).toNat else w.region a.toNat n

/-- The rows of tile i of a load or store: row number, address and bytes (R139). -/
def vecRows (e : VEntry) (strided : Bool) (i : Nat) : List (Nat × Int × Nat) :=
  let r := vtR (vTy e.w)
  if strided then (List.range r).map (fun k => (k, e.addr + ((r * i + k) * e.pitch : Nat), 1024 / r))
  else [(0, e.addr + (1024 * i : Nat), 1024)]

/-- All rows of all repeats lie in the scratchpad. -/
def vecBounds (w : Work) (e : VEntry) (strided : Bool) : Eng Unit :=
  ((List.range (vREP e.w + 1)).flatMap (vecRows e strided)).forM (fun r => w.vregion r.2.1 r.2.2)

/-- VLD and VLDS (R139, R145): masked elements keep their values, and their bytes are read. -/
def vecLoad (strided : Bool) (w : Work) (e : VEntry) : Eng Unit := do
  if e.reps == 0 then vecBounds w e strided else pure ()
  let l ← (vecRows e strided e.reps).mapM (fun r => do
    let v ← w.read r.2.1.toNat r.2.2
    pure (v * 2 ^ (8 * r.1 * r.2.2)))
  let x := BitVec.ofNat 8192 l.sum
  let b := vtW (vTy e.w)
  modify (fun s =>
    let v := s.vec w.g
    s.setVec w.g (v.put (vTD e.w + e.reps) b (vtN (vTy e.w)) (vOn e.w v) (elemAt b x)))

/-- Runs of consecutive numbers in a rising list: start and length. -/
def runsOf (l : List Nat) : List (Nat × Nat) :=
  (l.foldl (fun (a : List (Nat × Nat)) x =>
    match a with
    | (b, n) :: r => if b + n == x then (b, n + 1) :: r else (x, 1) :: a
    | [] => [(x, 1)]) []).reverse

/-- VST and VSTS (R139, R145): bytes of masked elements are left as they were. -/
def vecStore (strided : Bool) (w : Work) (e : VEntry) : Eng Unit := do
  if e.reps == 0 then vecBounds w e strided else pure ()
  (vecRows e strided e.reps).forM (fun r => do
    let a := r.2.1.toNat
    w.owned a r.2.2
    let s ← get
    let v := s.vec w.g
    let z := vtW (vTy e.w) / 8
    let n := r.2.2 / z
    let x := v.tile (vTB e.w + e.reps)
    let on := (List.range n).filter (fun k => vOn e.w v (r.1 * n + k))
    (runsOf on).forM (fun p =>
      w.write (a + z * p.1) (z * p.2) (x.toNat / 2 ^ (8 * (r.1 * r.2.2 + z * p.1)))))

def execVld (g : Nat) (s : State) : Out := vecRow g 0xC0 (vecLoad false) s
def execVlds (g : Nat) (s : State) : Out := vecRow g 0xC1 (vecLoad true) s
def execVst (g : Nat) (s : State) : Out := vecRow g 0xC2 (vecStore false) s
def execVsts (g : Nat) (s : State) : Out := vecRow g 0xC3 (vecStore true) s

/-- VMLD (R139): the whole mask register. -/
def execVmld (g : Nat) (s : State) : Out :=
  vecRow g 0xC4 (fun w e => do
    w.vregion e.addr 128
    let v ← w.read e.addr.toNat 128
    modify (fun s => s.setVec g ((s.vec g).setMask (vTD e.w) (BitVec.ofNat 1024 v)))) s

/-- VMST (R139). -/
def execVmst (g : Nat) (s : State) : Out :=
  vecRow g 0xC5 (fun w e => do
    w.vregion e.addr 128
    let s ← get
    w.write e.addr.toNat 128 ((s.vec g).mask (vTB e.w)).toNat) s

/-- VCHLD (R139, R153). -/
def execVchld (g : Nat) (s : State) : Out :=
  vecRow g 0xC6 (fun w e => do
    w.vregion e.addr 144
    let v ← w.read e.addr.toNat 144
    modify (fun s => let x := s.vec g; s.setVec g { x with chain := x.chain.set (vTD e.w) (BitVec.ofNat 1152 v) })) s

/-- Arithmetic on the values read, rounded once (R141–R143). -/
def vecArith (op : Nat) (w : W64) (i : Nat) (v : Vec) : Vec :=
  let ty := vTy w
  v.each w i (fun _ x y z => vtEnc ty (vtArith op ty (vtDec ty x) (vtDec ty y) (vtDec ty z)) .rne)

/-- Logic and shifts on the codes. -/
def vecLogic (op : Nat) (w : W64) (i : Nat) (v : Vec) : Vec := v.each w i (fun _ x y _ => vtLogic op (vtW (vTy w)) x y)

/-- Square root and the transcendental operations (R143, R144). -/
def vecFun (op : Nat) (w : W64) (i : Nat) (v : Vec) : Vec := v.each w i (fun _ x _ _ => vtFun op (vTy w) x)

def execVmov (g : Nat) (s : State) : Out := vecOp g 0xC7 (fun w i v => v.each w i (fun _ x _ _ => x)) s
def execVadd (g : Nat) (s : State) : Out := vecOp g 0xC8 (vecArith 0xC8) s
def execVsub (g : Nat) (s : State) : Out := vecOp g 0xC9 (vecArith 0xC9) s
def execVmul (g : Nat) (s : State) : Out := vecOp g 0xCA (vecArith 0xCA) s
def execVfma (g : Nat) (s : State) : Out := vecOp g 0xCB (vecArith 0xCB) s
def execVdiv (g : Nat) (s : State) : Out := vecOp g 0xCC (vecArith 0xCC) s
def execVmin (g : Nat) (s : State) : Out := vecOp g 0xCD (vecArith 0xCD) s
def execVmax (g : Nat) (s : State) : Out := vecOp g 0xCE (vecArith 0xCE) s
def execVabs (g : Nat) (s : State) : Out := vecOp g 0xCF (vecArith 0xCF) s
def execVneg (g : Nat) (s : State) : Out := vecOp g 0xD0 (vecArith 0xD0) s
def execVsqrt (g : Nat) (s : State) : Out := vecOp g 0xD1 (vecFun 0xD1) s
def execVrcp (g : Nat) (s : State) : Out := vecOp g 0xD2 (vecFun 0xD2) s
def execVrsqrt (g : Nat) (s : State) : Out := vecOp g 0xD3 (vecFun 0xD3) s
def execVexp (g : Nat) (s : State) : Out := vecOp g 0xD4 (vecFun 0xD4) s
def execVlog (g : Nat) (s : State) : Out := vecOp g 0xD5 (vecFun 0xD5) s
def execVtanh (g : Nat) (s : State) : Out := vecOp g 0xD6 (vecFun 0xD6) s
def execVsig (g : Nat) (s : State) : Out := vecOp g 0xD7 (vecFun 0xD7) s
def execVgelu (g : Nat) (s : State) : Out := vecOp g 0xD8 (vecFun 0xD8) s

/-- A mask register with the bits of the first n elements replaced where `on` holds (R134, R145). -/
def Vec.putMask (v : Vec) (i n : Nat) (on f : Nat → Bool) : Vec :=
  let old := v.mask i
  let lo := packBits 1 ((List.range n).map (fun e => b2n (if on e then f e else old.getLsbD e)))
  v.setMask i (BitVec.ofNat 1024 (old.toNat / 2 ^ n * 2 ^ n + lo))

/-- VCMP (R139, R143). -/
def execVcmp (g : Nat) (s : State) : Out :=
  vecOp g 0xD9 (fun w _ v =>
    let ty := vTy w
    let x := v.tile (vTA w)
    let y := v.tile (vTB w)
    v.putMask (vTD w) (vtN ty) (vOn w v) (fun e =>
      vtCmp (vIMM w) (vtDec ty (elemAt (vtW ty) x e)) (vtDec ty (elemAt (vtW ty) y (if vSCAL w then 0 else e))))) s

/-- VSEL (R139). -/
def execVsel (g : Nat) (s : State) : Out :=
  vecOp g 0xDA (fun w i v =>
    let m := v.mask (vMK w)
    v.each w i (fun e x y _ => if m.getLsbD e then x else y)) s

def execVand (g : Nat) (s : State) : Out := vecOp g 0xDB (vecLogic 0xDB) s
def execVor (g : Nat) (s : State) : Out := vecOp g 0xDC (vecLogic 0xDC) s
def execVxor (g : Nat) (s : State) : Out := vecOp g 0xDD (vecLogic 0xDD) s
def execVnot (g : Nat) (s : State) : Out := vecOp g 0xDE (vecLogic 0xDE) s
def execVshl (g : Nat) (s : State) : Out := vecOp g 0xDF (vecLogic 0xDF) s
def execVshr (g : Nat) (s : State) : Out := vecOp g 0xE0 (vecLogic 0xE0) s
def execVsra (g : Nat) (s : State) : Out := vecOp g 0xE1 (vecLogic 0xE1) s

/-- VMOP (R134, R139). -/
def execVmop (g : Nat) (s : State) : Out :=
  vecOp g 0xE2 (fun w _ v =>
    let a := v.mask (vTA w)
    let b := v.mask (vTB w)
    v.putMask (vTD w) (vtN (vTy w)) (fun _ => true) (fun e =>
      let x := a.getLsbD e
      let y := b.getLsbD e
      match vIMM w with
      | 0 => x && y
      | 1 => x || y
      | 2 => x != y
      | 3 => x && !y
      | 4 => !x
      | 5 => true
      | _ => false)) s

/-- VIOTA (R139). -/
def execViota (g : Nat) (s : State) : Out :=
  vecOp g 0xE3 (fun w i v => v.each w i (fun e _ _ _ => satInt (vtW (vTy w)) e)) s

/-- The element that VTRN moves to e: transposition of the tile, or of each of its two 16 × 16 blocks. -/
def vtrnSrc (ty e : Nat) : Nat :=
  let c := vtC ty
  let r := e / c
  let k := e % c
  if vtW ty == 16 then k % 16 * c + (k / 16 * 16 + r) else k * c + r

/-- VTRN (R139). -/
def execVtrn (g : Nat) (s : State) : Out :=
  vecOp g 0xE4 (fun w i v =>
    let b := vtW (vTy w)
    let x := v.tile (vTA w + i)
    v.put (vTD w + i) b (vtN (vTy w)) (fun _ => true) (fun e => elemAt b x (vtrnSrc (vTy w) e))) s

/-- Accumulation of R146: FP32 for floating types, 64-bit wrapping integers otherwise. 0 SUM, 1 MIN, 2 MAX. -/
def vAcc (flt : Bool) (op : Nat) (a x : Dy) : Dy :=
  match op with
  | 0 => if flt then val32 (rne32 (a.add x)).1 else Dy.ofInt (sgn (((a.at 0) + x.at 0) % 2 ^ 64).toNat 64)
  | 1 => Dy.minD a x
  | _ => Dy.maxD a x

def vIdent (ty op : Nat) : Dy := match op with | 0 => Dy.zero | 1 => vtMax ty | _ => vtMin ty

/-- VRED (R145, R146). -/
def execVred (g : Nat) (s : State) : Out :=
  vecOp g 0xE5 (fun w i v =>
    let ty := vTy w
    let b := vtW ty
    let c := vtC ty
    let cols := vIMM w % 2 == 1
    let op := vIMM w / 2
    let x := v.tile (vTA w + i)
    let red := fun k =>
      let es := if cols then (List.range (vtR ty)).map (fun r => r * c + k) else (List.range c).map (fun j => k * c + j)
      vtEnc ty (es.foldl (fun a e =>
        vAcc (vtFloat ty) op a (if vOn w v e then vtDec ty (elemAt b x e) else vIdent ty op)) (vIdent ty op)) .rne
    v.put (vTD w + i) b (vtN ty) (fun _ => true) (fun e => if e < (if cols then c else vtR ty) then red e else 0)) s

/-- An entry of the carry register as a value of the kind a type reads (R148). -/
def carryVal (flt : Bool) (c : Carry) : Dy :=
  match c with
  | .fp v => if flt then val32 v else Dy.ofInt (sgn (satInt 64 ((val32 v).toInt .rne)) 64)
  | .int v => if flt then val32 (rne32 (Dy.ofInt v.toInt)).1 else Dy.ofInt v.toInt

def toCarry (flt : Bool) (v : Dy) : Carry :=
  if flt then .fp (BitVec.ofNat 32 (posZero 32 (rne32 v).1.toNat)) else .int (BitVec.ofInt 64 (v.at 0))

/-- Segmented reduction or scan of one lane (R147): codes by position, and the value the lane leaves in the
carry register. `ends` tells the last element of a segment. -/
def segLane (ty op : Nat) (scan cout : Bool) (start : Dy) (xs : List Nat) (ends : List Bool) : List Nat × Dy :=
  let flt := vtFloat ty
  let n := xs.length
  let r := (List.range n).foldl (fun (a : List Nat × Dy × Bool) i =>
    let v := vAcc flt op a.2.1 (vtDec ty (xs.getD i 0))
    let e := ends.getD i false
    let last := e || (i + 1 == n && !cout)
    let c := if scan || last then vtEnc ty v .rne else 0
    (c :: a.1, if e then vIdent ty op else v, !e)) ([], start, false)
  (r.1.reverse, if r.2.2 then r.2.1 else vIdent ty op)

/-- VSEGRED and VSEGSCAN (R147, R148). Of the carry register, COUT sets the entries that the form uses: one for each
column in row form, entry 0 in element form; the others keep their values (DESIGN CHOICE, log entry 65). -/
def vecSeg (scan : Bool) (w : W64) (_i : Nat) (v : Vec) : Vec :=
  let ty := vTy w
  let b := vtW ty
  let c := vtC ty
  let i := vIMM w
  let op := i / 8
  let cout := i % 2 == 1
  let x := v.tile (vTA w)
  let m := v.mask (vMK w)
  let start := fun k => if i / 2 % 2 == 1 then
      vAcc (vtFloat ty) op (vIdent ty op) (carryVal (vtFloat ty) (v.carry.getD k (.int 0#64)))
    else vIdent ty op
  if i / 4 % 2 == 1 then
    let lanes := (List.range c).map (fun k =>
      segLane ty op scan cout (start k) ((List.range (vtR ty)).map (fun r => elemAt b x (r * c + k)))
        ((List.range (vtR ty)).map (fun r => m.getLsbD r)))
    let v := v.put (vTD w) b (vtN ty) (fun _ => true) (fun e => ((lanes.getD (e % c) ([], Dy.zero)).1).getD (e / c) 0)
    if cout then { v with carry := iter c (fun k t =>
      Tab.set t k (toCarry (vtFloat ty) (lanes.getD k ([], Dy.zero)).2)) v.carry } else v
  else
    let l := segLane ty op scan cout (start 0) ((List.range (vtN ty)).map (fun e => elemAt b x e))
      ((List.range (vtN ty)).map (fun e => m.getLsbD e))
    let v := v.put (vTD w) b (vtN ty) (fun _ => true) (fun e => l.1.getD e 0)
    if cout then { v with carry := v.carry.set 0 (toCarry (vtFloat ty) l.2) } else v

def execVsegred (g : Nat) (s : State) : Out := vecOp g 0xE6 (vecSeg false) s
def execVsegscan (g : Nat) (s : State) : Out := vecOp g 0xE7 (vecSeg true) s

/-- Insert (key, element) after every entry that does not come later. -/
def sortIns (lt : Dy → Dy → Bool) (x : Dy × Nat) (l : List (Dy × Nat)) : List (Dy × Nat) :=
  match l with
  | [] => [x]
  | y :: r => if lt x.1 y.1 then x :: y :: r else y :: sortIns lt x r

/-- The stable order of keys, ascending or descending (R149): element numbers. -/
def sortPerm (desc : Bool) (ks : List (Dy × Nat)) : List Nat :=
  (ks.foldl (fun l k => sortIns (fun a b => if desc then b.lt a else a.lt b) k l) []).map (·.2)

/-- VSORT (R149). -/
def execVsort (g : Nat) (s : State) : Out :=
  vecOp g 0xE8 (fun w k v =>
    let ty := vTy w
    let b := vtW ty
    let i := vIMM w
    let len := if i / 2 % 2 == 1 then vtN ty else vtC ty
    let x := v.tile (vTA w + k)
    let y := v.tile (vTB w + k)
    let perm := (List.range (vtN ty / len)).flatMap (fun p =>
      sortPerm (i % 2 == 1) ((List.range len).map (fun j => (vtDec ty (elemAt b x (p * len + j)), p * len + j))))
    let v := v.setTile (vTD w + k) (packTile b (perm.map (fun e => vtEnc ty (vtDec ty (elemAt b x e)) .rne)))
    if i / 4 == 1 then v.setTile (vTC w + k) (packTile b (perm.map (elemAt b y))) else v) s

/-- VCMPR (R139): elements, or rows, whose mask bit is set. -/
def execVcmpr (g : Nat) (s : State) : Out :=
  vecOp g 0xE9 (fun w i v =>
    let ty := vTy w
    let m := v.mask (vMK w)
    let b := if vIMM w == 1 then vtW ty * vtC ty else vtW ty
    let x := v.tile (vTA w + i)
    let on := (List.range (8192 / b)).filter (fun e => m.getLsbD e)
    v.setTile (vTD w + i) (packTile b (on.map (elemAt b x)))) s

/-- VCVT of one repeat (R150): destination elements in ascending order, one draw for each converted element
under stochastic rounding. -/
def vecCvtRep (w : W64) (i : Nat) (v : Vec) : Vec :=
  let ty := vTy w
  let im := vIMM w
  let o := im % 16
  let n := min (vtN ty) (vtN o)
  let p := im / 64
  let x := v.tile (vTA w + i)
  let s0 := if vtN o < vtN ty then p * n else 0
  let d0 := if vtN ty < vtN o then p * n else 0
  let trunc := im / 32 % 2 == 1 && vtFloat ty && !vtFloat o
  let sr := im / 16 % 2 == 1 && !trunc
  let r := (List.range n).foldl (fun (a : List Nat × W64) k =>
    if vOn w v (d0 + k) then
      let g := if sr then xorshift a.2 else a.2
      let rd : VRnd := if trunc then .trunc else if sr then .sr (drawBits g 16) else .rne
      (vtEnc o (vtDec ty (elemAt (vtW ty) x (s0 + k))) rd :: a.1, g)
    else (0 :: a.1, a.2)) ([], v.gen)
  let l := r.1.reverse
  { v.put (vTD w + i) (vtW o) (vtN o) (fun e => d0 ≤ e && e < d0 + n && vOn w v e) (fun e => l.getD (e - d0) 0)
      with gen := r.2 }

def execVcvt (g : Nat) (s : State) : Out :=
  vecOp g 0xEA vecCvtRep s

/-- VQNT of one repeat (R151): the packed elements and the block codes, with the generator's state. -/
def vecQntRep (w : W64) (i : Nat) (v : Vec) : List Nat × List Nat × W64 :=
  let ty := vTy w
  let im := vIMM w
  let f := im % 16
  let x := v.tile (vTA w + i)
  let sr := im / 32 % 2 == 1
  (List.range (vtN ty / 32)).foldl (fun (a : List Nat × List Nat × W64) j =>
    let vs := (List.range 32).map (fun k => vtDec ty (elemAt (vtW ty) x (32 * j + k)))
    let c := (scaleCode f (if im / 16 % 2 == 1 then asFit else asOcp) 0 0 (vs.map Dy.abs)).1
    let q := vs.foldl (fun (b : List Nat × W64) y =>
      let rd := macRnd sr b.2
      ((fmQuant f (y.scale (127 - (c : Int))) rd.1).1 :: b.1, rd.2)) ([], a.2.2)
    (a.1 ++ q.1.reverse, a.2.1 ++ [c], q.2)) ([], [], v.gen)

/-- Bytes from `at` of a tile replaced by n bytes of a number, and what lies above them cleared. -/
def tileCut (x : TileW) (o n v : Nat) : TileW :=
  BitVec.ofNat 8192 (x.toNat % 2 ^ (8 * o) + v % 2 ^ (8 * n) * 2 ^ (8 * o))

/-- VQNT (R151). -/
def execVqnt (g : Nat) (s : State) : Out :=
  vecOp g 0xEB (fun w i v =>
    let p := vqP w
    let nb := vtN (vTy w) / 32
    let sd := vIMM w / 64 % 32
    let r := vecQntRep w i v
    let v := { v with gen := r.2.2 }
    let v := v.setTile (vTD w) (tileCut (v.tile (vTD w)) (p * i) p (packBits (fmWidth (vIMM w % 16)) r.1))
    v.setTile sd (tileCut (v.tile sd) (nb * i) nb (packBits 8 r.2.1))) s

/-- VDQNT (R152). -/
def execVdqnt (g : Nat) (s : State) : Out :=
  vecOp g 0xEC (fun w i v =>
    let ty := vTy w
    let f := vIMM w
    let wd := fmWidth f
    let n := vtN ty
    let x := v.tile (vTA w)
    let y := v.tile (vTB w)
    v.put (vTD w + i) (vtW ty) n (fun _ => true) (fun e =>
      let c := elemAt 8 y (n / 32 * i + e / 32)
      if c == 0xFF then 0
      else vtEnc ty ((fmDec f (elemAt wd x (n * i + e))).scale ((c : Int) - 127)) .rne)) s

/-- VMARK (R139): it finishes once every earlier instruction has. -/
def execVmark (g : Nat) (s : State) : Out := vecOp g 0xEE (fun _ _ v => v) s

end Sys2Proof.Machine
end

