-- ==== Sys2Proof/Machine/Dma.lean ====
section
/-! DEFINITION. Issue of descriptors (R102, R103), SIGNAL (R114), the end of a sequencer's stall (R102, R113–R118),
and the DMA descriptors as the agent takes them (R107–R110, R228, R233). -/

namespace Sys2Proof.Machine

/-- The queue of an engine is full for this core (R102): MAC, edge or DMA. -/
def State.engFull (s : State) (g eng : Nat) : Bool :=
  let c := s.core g
  let bp := corePage g
  if eng == engMac then s.fld bp MAC_CFG_QDEPTH < c.mac.q.length
  else if eng == engEdge then s.fld bp EDGE_CFG_QDEPTH < c.edge.q.length
  else s.fld bp SEQ_CFG_DMA_QDEPTH < c.dmaQ

/-- ISSUE (R102, R103): copy the descriptor at word c[B] + sext(IMM) into the engine's queue. -/
def State.issueDesc (s : State) (g eng : Nat) (w : W64) : State :=
  if s.engFull g eng then s.stallAt g (.queueFull eng w)
  else
    let c := s.core g
    let word := (c.reg (wB w) + sext (wImm w)).toNat
    let a := 32 * word
    s.seqRead g w a 32 (fun s =>
      let v := s.spVal g a 32
      let d : Quad := ⟨BitVec.ofNat 64 v, BitVec.ofNat 64 (v / 2 ^ 64), BitVec.ofNat 64 (v / 2 ^ 128),
        BitVec.ofNat 64 (v / 2 ^ 192)⟩
      let c := s.core g
      let e : QEntry := ⟨d, c.pc, w, word⟩
      s.finish g
        (if eng == engMac then { c with mac := { c.mac with q := c.mac.q ++ [e] } }
         else if eng == engEdge then { c with edge := { c.edge with q := c.edge.q ++ [e] } }
         else { c with dma := { c.dma with q := c.dma.q ++ [e] } }))

/-- ISSUE.MAC, ISSUE.EDGE and ISSUE.DMA (R98, R102, R103). -/
def execIssueMac (g : Nat) (b : BitVec 5) (imm : W32) (s : State) : Out :=
  issue g (encI 0x50 0#5 b imm) (fun s => s.issueDesc g engMac (encI 0x50 0#5 b imm)) s

def execIssueEdge (g : Nat) (b : BitVec 5) (imm : W32) (s : State) : Out :=
  issue g (encI 0x51 0#5 b imm) (fun s => s.issueDesc g engEdge (encI 0x51 0#5 b imm)) s

def execIssueDma (g : Nat) (b : BitVec 5) (imm : W32) (s : State) : Out :=
  issue g (encI 0x52 0#5 b imm) (fun s => s.issueDesc g engDma (encI 0x52 0#5 b imm)) s

/-- A write, fill, multicast or atomic that the core has issued is not acknowledged yet (R111, R114): in a queue,
running, or counted in UNACKED (log entry 41); an earlier SIGNAL is none of them. -/
def State.writesDue (s : State) (g : Nat) : Bool :=
  let c := s.core g
  let dw := fun (q : QEntry) => 1 ≤ ddOp q.d && ddOp q.d ≤ 5
  s.unackedWrites g != 0 || c.dma.q.any dw || c.dma.running.any (fun o => dw o.q)
    || c.edge.q.any (fun q => edOp q.d == 8) || c.edge.ops.any (fun o => edOp o.q.d == 8)

/-- The space-0x3 address of logical core l with offset 0 (R114). -/
def lcoreAddr (l : Nat) : W64 := BitVec.ofNat 64 (3 * 2 ^ 60 + l * 2 ^ 47)

/-- SIGNAL (R114, R99, R217, R248). -/
def State.signalGo (s : State) (g : Nat) (w : W64) : State :=
  let c := s.core g
  let l := (c.reg (wB w)).toNat
  let addr := lcoreAddr l
  if 16 ≤ wX w || 2 ≤ (wImm w).toNat || s.nCores g ≤ l then s.seqFault g fkIllegal w 0#64
  else if bit w 0 && s.writesDue g then s.stallAt g (.release w)
  else match s.dest g addr with
  | none => s.seqFault g fkRefused w addr
  | some t =>
    let part := s.winPart g
    match s.openTx g (g % 16) 1 (mkTx (.sig g c.pc w) true ⟨addr, 0, 0, 0, some t, part, addr⟩ 0 0 0 1) (fun tag =>
        train (mkHdr (dieOfSite g) (g % 16) t.router t.dep part tag vcREQ ptSIGNAL)
          [(0#256, BitVec.ofNat 36 (wX w))]) with
    | some s => s.finish g (s.core g)
    | none => s.stallAt g (.queueFull engDma w)

/-- SIGNAL. -/
def execSignal (g : Nat) (b : BitVec 5) (x : BitVec 9) (imm : W32) (s : State) : Out :=
  issue g (encInsn 0x63 0#5 b 0#5 x imm) (fun s => s.signalGo g (encInsn 0x63 0#5 b 0#5 x imm)) s

/-- Run the instruction that a stall on a full queue or on RELEASE holds. -/
def State.reissue (s : State) (g : Nat) (w : W64) : State :=
  let s := s.updCore g (fun c => { c with seq := .run, stall := none })
  match wOp w with
  | 0x50 => s.issueDesc g engMac w
  | 0x51 => s.issueDesc g engEdge w
  | 0x52 => s.issueDesc g engDma w
  | 0x63 => s.signalGo g w
  | _ => if s.vecFull g then s.stallAt g (.queueFull engVec w) else s.vecPush g w

/-- The condition a stall waits for holds, and the stall ends (R102, R113–R118, R122); the wait for an epoch's
commit ends with the commit. -/
def State.stallEnd (s : State) (g : Nat) : State :=
  match (s.core g).seq, (s.core g).stall with
  | .wait, some (.counter k v) => if v ≤ ((s.core g).kVal k).toNat then s.unstall g else s
  | .wait, some (.queueFull _ w) => s.reissue g w
  | .wait, some (.release w) => s.reissue g w
  | .wait, some (.fence x) => if s.fenced g x then s.unstall g else s
  | .wait, some .haltFence => if s.fenced g 0x1F then s.haltGo g else s
  | .wait, some .epochFence => if s.fenced g 0x1F then s.epochGo g else s
  | .wait, some .finder => if (s.core g).mac.finder.isEmpty then s.halt g else s
  | _, _ => s

/-- SEQ_STALL_END. -/
def execSeqStallEnd (g : Nat) (s : State) : Out := onSite g (fun s => s.stallEnd g) s

/-- The descriptor's fields are valid (R109, R233). A GET or PUT with ROWLEN 0 is one run, and its RSTRIDE is held to be
an unused field: not zero makes it invalid (DESIGN CHOICE, log entry 66). -/
def ddValid (d : Quad) : Bool :=
  let op := ddOp d
  let n := ddLen d
  let sp := addrSpace d.w1
  let row := ddRow d
  let aop := ddAop d
  !bit d.w0 23 && op ≤ 6 && (n != 0 || op == 6) && (op == 3 || op == 6 || n ≤ spSize)
  && (op == 3 || (aop == 0 && !ddRet d)) && (op == 0 || !ddCach d)
  && (match op with
    | 0 | 1 => bits d.w2 15 0 == 0 && d.w3 == 0#64
        && (if row == 0 then ddStride d == 0 else n % row == 0)
    | 2 => ddLaddr d == 0 && d.w3 == 0#64
    | 3 => (sp == 0 || sp == 1) && (n == 4 || n == 8) && aop ≤ 0x0A
        && (n == 4 || !(aop == 1 || aop == 4 || aop == 7)) && d.w1.toNat % n == 0
        && (n == 8 || (bits d.w2 63 32 == 0 && bits d.w3 63 32 == 0)) && (aop == 9 || d.w3 == 0#64)
        && (if ddRet d then ddLaddr d % n == 0 else ddLaddr d == 0)
    | 4 => sp == 2 && d.w2 == 0#64 && bits d.w3 63 24 == 0
    | 5 => sp == 2 && d.w2 == 0#64 && bits d.w3 63 16 == 0
    | _ => ddLaddr d == 0 && d.w2 == 0#64 && d.w3 == 0#64)

/-- Rows of a GET or PUT: (remote address, offset in the local run, length) (R108). -/
def ddRows (d : Quad) : List (W64 × Nat × Nat) :=
  if ddRow d == 0 then [(d.w1, 0, ddLen d)]
  else (List.range (ddLen d / ddRow d)).map (fun r =>
    (d.w1 + BitVec.ofNat 64 (r * ddStride d), r * ddRow d, ddRow d))

/-- Position of die d along its row or column. -/
def linePos (d : Nat) (col : Bool) : Nat := if col then dieY d else dieX d

/-- No router from the die's own, not included, to position i is a hole in its MC_HOLES (R265). -/
def State.mcReach (s : State) (d : Nat) (col : Bool) (i : Nat) : Bool :=
  let h := s.fld (spinePage d) (if col then MC_HOLES_COL_HOLES else MC_HOLES_ROW_HOLES)
  let p := linePos d col
  (List.range 24).all (fun j =>
    !((if p < i then p < j && j ≤ i else i ≤ j && j < p) && h / 2 ^ j % 2 == 1))

/-- The transactions of a multicast (R249, R265): one multicast for the routers it reaches, and a unicast for each
selected router behind a hole. -/
def State.mcPieces (s : State) (g : Nat) (d : Quad) : List TxReq :=
  let die := dieOfSite g
  let col := ddOp d == 5
  let sel := maskBits (ddMask d)
  let near := sel.filter (fun i => s.mcReach die col i)
  let far := sel.filter (fun i => !s.mcReach die col i)
  let m := (near.map (fun i => 2 ^ i)).sum
  (pieces (ddLen d + 1) d.w1 (ddLaddr d) (ddLen d) 384 m).flatMap (fun p =>
    (if m == 0 then [] else [p]) ++ far.map (fun i =>
      let a := setBits p.addr 59 51 (lineRouter die col i)
      { p with mask := 0, addr := a, rep := a }))

/-- What an operation has to issue (R108, R249). -/
def State.ddTodo (s : State) (g : Nat) (d : Quad) : List TxReq :=
  let host := addrSpace d.w1 == 8
  match ddOp d with
  | 0 => (ddRows d).flatMap (fun r =>
      if ddCach d then linePieces (r.2.2 + 1) r.1 (ddLaddr d + r.2.1) r.2.2
      else pieces (r.2.2 + 1) r.1 (ddLaddr d + r.2.1) r.2.2 512 0)
  | 1 => (ddRows d).flatMap (fun r =>
      pieces (r.2.2 + 1) r.1 (ddLaddr d + r.2.1) r.2.2 (if host then 384 else 512) 0)
  | 2 => pieces (ddLen d + 1) d.w1 0 (ddLen d) (if host then 384 else 512) 0
  | 3 => [⟨d.w1, ddLaddr d, ddLen d, 0, none, 127, d.w1⟩]
  | 4 | 5 => s.mcPieces g d
  | _ => []

/-- CINV begins (R228): its lines are dropped, and it completes when the base die is done. -/
def State.cinvGo (s : State) (g i : Nat) (d : Quad) : State :=
  let die := dieOfSite g
  let ks := (linePieces (ddLen d + 1) d.w1 0 (ddLen d)).filterMap (fun p => (s.dest g p.addr).bind (·.key))
  let s := s.cacheDrop die (fun key _ => ddLen d == 0 || ks.contains key)
  { s with fab := { s.fab with invs := s.fab.invs ++ [⟨die, some (g, i), none⟩] } }

/-- The agent takes a descriptor from its queue (R103, R106, R109, R214). -/
def dmaTake (g : Nat) (e : QEntry) (r : List QEntry) : Eng Unit := do
  let w := e.dma g
  let d := e.d
  let op := ddOp d
  w.require (ddValid d)
  if op == 0 || op == 1 || op == 4 || op == 5 || (op == 3 && ddRet d) then w.owned (ddLaddr d) (ddLen d) else pure ()
  let s ← get
  let ok := if op ≤ 1 then (ddRows d).all (fun x => s.rangeOk g x.1 x.2.2) else s.rangeOk g d.w1 (ddLen d)
  if ok then
    let i := (s.core g).dma.nextOp
    let todo := (s.ddTodo g d).map (s.resolve g)
    modify (fun (s : State) => s.updDma g (fun x =>
      { x with q := r, ops := x.ops ++ [⟨i, e, todo, false⟩], nextOp := i + 1 }))
    modify (fun (s : State) => (if op == 6 then s.cinvGo g i d else s).dmaCheck g i)
  else w.fault fkRefused d.w1.toNat

/-- Take the descriptor at the head of the DMA queue when it is the one a row names; up to 4 run at once (R102). A
reserved operation at the head is taken, and faults, by any row. -/
def dmaRow (g op : Nat) (s : State) : Out :=
  onSite g (fun s =>
    match (s.core g).dma.q with
    | [] => s
    | e :: r =>
      if (s.core g).enginesRun && (s.core g).dma.running.length < 4 && (ddOp e.d == op || 7 ≤ ddOp e.d) then
        (Eng.go (dmaTake g e r) s).pump g
      else s) s

def execGet (g : Nat) (s : State) : Out := dmaRow g 0 s
def execPut (g : Nat) (s : State) : Out := dmaRow g 1 s
def execDmaFill (g : Nat) (s : State) : Out := dmaRow g 2 s
def execAtomic (g : Nat) (s : State) : Out := dmaRow g 3 s
def execMcastRow (g : Nat) (s : State) : Out := dmaRow g 4 s
def execMcastCol (g : Nat) (s : State) : Out := dmaRow g 5 s
def execCinv (g : Nat) (s : State) : Out := dmaRow g 6 s

end Sys2Proof.Machine
end

