-- ==== Sys2Proof/Machine/Endpoint.lean ====
section
/-! DEFINITION. What a destination does with a packet, and an issuer with the answer: slices, scratchpad windows,
the host port and the cache control page (R217, R221, R222, R229–R234, R242), read combining (R230, R231), the count
of a transaction's packets (R251), acknowledgements, refusals and timeouts (R252, R253), and cache fills (R227). -/

namespace Sys2Proof.Machine

/-- Refusal reasons (R253). -/
def rfPartition : Nat := 1
def rfSlot : Nat := 2
def rfAbsent : Nat := 3
def rfOwner : Nat := 4
def rfPoison : Nat := 5
def rfHostDown : Nat := 6
def rfMalformed : Nat := 7

/-- What a destination finds: the unit serves the access, it refuses it with a reason, or it holds it (R242). -/
inductive Gate where
  | serve (base : Nat)
  | refuse (reason : Nat)
  | hold
  deriving DecidableEq, Repr

/-- The site behind an endpoint code for a partition (R217, R247). -/
def State.epSite (s : State) (r dep part : Nat) : Option Nat :=
  if part == 127 then (if dep < 16 then some (16 * r + dep) else none) else s.slotSite r dep

/-- May a partition access bytes [off, off+n) of slice k (R221)? In self-refresh a slice serves nothing yet (R338). -/
def State.sliceGate (s : State) (k off n part : Nat) : Gate :=
  if sliceSize < off + n then .refuse rfMalformed
  else if s.hbm.downNow.contains k then .refuse rfAbsent
  else if s.hbm.selfRefresh then .hold
  else if part == 127 then .serve (hbmBase k)
  else
    let ok := (granules off n 256).all (fun q =>
      match s.physOf k q with
      | some p => p / 2 ^ 30 < s.hbmN * 3 / 4 && s.hbm.owner.find (p / 2 ^ 30) == some part
      | none => false)
    if ok then .serve (hbmBase k) else .refuse rfPartition

/-- May a partition access bytes [off, off+n) of a scratchpad window (R195, R196)? -/
def State.windowGate (s : State) (g off n part : Nat) : Gate :=
  if spSize < off + n then .refuse rfMalformed
  else if part == 127 then .serve (spBase g)
  else if !s.owns g ownWindow off n then .refuse rfOwner
  else if (s.core g).part != part then .refuse rfPartition
  else .serve (spBase g)

/-- Transfers of a partition through host port p are served, held or refused (R242, R309, R310). -/
def State.hostGate (s : State) (p part : Nat) : Gate :=
  if !s.part.hasPort p then .refuse rfAbsent
  else if (s.port p).up && (part == 127 || (s.prt part).bound) then .serve (hostBase p)
  else if part != 127 && ((s.prt part).causes.contains .orphan || !(s.prt part).live) then .refuse rfHostDown
  else .hold

/-- A program may use a cache control page only on a die whose window sets hold its partition (R229). -/
def State.cacheGate (s : State) (d off n part : Nat) : Gate :=
  if 4096 < off + n then .refuse rfMalformed
  else if part == 127 || (List.range 4).any (fun w =>
      s.flag (spinePage d) (WIN_HDR_VALID w) && s.fld (spinePage d) (WIN_HDR_PART w) == part) then .serve 0
  else .refuse rfPartition

/-- The management die on a router's outward port (R21, R247). -/
def mgmtAt (r : Nat) : Option Nat := if r == 144 then some 0 else if r == 167 then some 1 else none

/-- A unit answers to endpoint code `dep` of router r (R20, R21, R247). -/
def State.attached (s : State) (r dep : Nat) : Bool :=
  if dep < 0x20 then true
  else if dep < 0x30 then (s.sliceAt r dep).isSome
  else if dep < 0x32 then s.dieState r != dieRetired && s.dieState r != dieDark
  else if dep == 0x32 then ((portAt r).map (fun p => s.part.hasPort p)).getD false
  else dep == 0x33 && (mgmtAt r).isSome

/-- Why a unit without the access asked for refuses it, and an endpoint without a unit (R253). -/
def State.noAccess (s : State) (h : Hdr) : Nat := if s.attached h.drouter h.dep then rfMalformed else rfAbsent

/-- What the endpoint of a packet says of an access of n bytes at `off`. -/
def State.gate (s : State) (h : Hdr) (off n : Nat) : Gate :=
  if h.dep < 0x10 then
    match s.epSite h.drouter h.dep h.part with
    | some g => s.windowGate g off n h.part
    | none => .refuse rfSlot
  else if 0x20 ≤ h.dep && h.dep < 0x30 then
    match s.sliceAt h.drouter h.dep with
    | some k => s.sliceGate k off n h.part
    | none => .refuse rfAbsent
  else if h.dep == 0x31 then s.cacheGate h.drouter off n h.part
  else if h.dep == 0x32 then
    match portAt h.drouter with
    | some p => s.hostGate p h.part
    | none => .refuse rfAbsent
  else .refuse (s.noAccess h)

/-- The combining unit of an endpoint: a slice, or 10000 + site for a window (R230). -/
def State.combUnit (s : State) (h : Hdr) : Nat :=
  if h.dep < 0x10 then 10000 + (s.epSite h.drouter h.dep h.part).getD 0
  else (s.sliceAt h.drouter h.dep).getD 0

/-- Code of the answering endpoint: a site for a window, else the code itself (R247). -/
def State.ansEp (s : State) (h : Hdr) : Nat :=
  if h.dep < 0x10 then ((s.epSite h.drouter h.dep h.part).map (fun g => g % 16)).getD h.dep else h.dep

/-- Header of an answer. -/
def State.ansHdr (s : State) (h : Hdr) (type : Nat) : Hdr :=
  mkHdr h.drouter (s.ansEp h) h.srouter h.sep h.part h.tag vcRSP type

/-- Queue an answer's packets at the destination's router. -/
def State.answer (s : State) (h : Hdr) (type : Nat) (l : List (W256 × BitVec 36)) : State :=
  s.send h.drouter (train (s.ansHdr h type) l)

def State.ack (s : State) (h : Hdr) (err : Bool) : State :=
  s.answer h ptACK [(0#256, if err then 1#36 else 0#36)]
def State.refused (s : State) (h : Hdr) (reason : Nat) : State :=
  s.answer h ptREFUSE [(0#256, BitVec.ofNat 36 reason)]

/-- Granule of a destination's protection: 32-byte sectors in a slice, 8-byte granules in a scratchpad. -/
def protSize (dep : Nat) : Nat := if dep < 0x10 then 8 else 32

/-- The row of a byte of slice k, as the Almanac names it (R222, R395). -/
def hbmRow (k a : Nat) : Nat := 2 ^ 40 * k + (a - hbmBase k) / Config.hbmRowBytes

/-- A corrected sector of slice k (R222): counted and reported, and its row is recorded for repair at start-up (log entry
69). -/
def State.hbmCorrected (s : State) (k a part : Nat) : State :=
  let s := if s.almVal (almKey almHbm (hbmRow k a)) 0 == 1 then s else s.setAlm (almKey almHbm (hbmRow k a)) 1
  let s := { s with hbm := { s.hbm with corrected := s.hbm.corrected.set k (s.hbm.corrected.getD k 0 + 1) } }
  s.logCorrected srcHbmCe part (locSlice (k / 64) (k % 64)) (BitVec.ofNat 64 (a - hbmBase k)) []

/-- Reading bytes at the destination corrects what can be corrected (R192, R222); at a window it tells what cannot, and a
maintenance transfer reads on port B (R191, R198). -/
def State.epCorrect (s : State) (h : Hdr) (base off n : Nat) : State :=
  if h.dep < 0x10 then s.readAll ((s.epSite h.drouter h.dep h.part).getD 0) off n 1 (b2n (h.part == 127))
  else if h.dep < 0x30 then
    (s.weakAt (base + off) n 32).foldl (fun s a => s.hbmCorrected ((s.sliceAt h.drouter h.dep).getD 0) a h.part) s
  else s

/-- Poisoned 32-byte words of the line at `a`: bit i for word i. -/
def State.linePoison (s : State) (a z : Nat) : Nat :=
  popMask 4 (fun i => (s.poisonAt (a + 32 * i) 32 z).isSome)

/-- A line as a read meets it: through an open combining entry, by opening one, or alone (R230). The answer is
the 128 bytes of the line and its poisoned words. -/
def State.lineRead (s : State) (h : Hdr) (base line : Nat) (alone : Bool) : State × Nat × Nat :=
  let u := s.combUnit h
  let cap := if h.dep < 0x10 then 8 else 32
  let joins := fun (e : Combine) => e.unit == u && e.line == line && e.part == h.part && e.count < 64
  let v := memRead s.mem (base + 128 * line) 128
  let po := s.linePoison (base + 128 * line) (protSize h.dep)
  if alone then (s.epCorrect h base (128 * line) 128, v, po)
  else match s.fab.combine.find? joins with
  | some e =>
    ({ s with fab := { s.fab with combine := s.fab.combine.map (fun x =>
        if x == e then { x with count := x.count + 1 } else x) } }, e.data.toNat, e.poison)
  | none =>
    let s := s.epCorrect h base (128 * line) 128
    if (s.fab.combine.filter (fun e => e.unit == u)).length < cap
        && !s.fab.combine.any (fun e => e.unit == u && e.line == line && e.part == h.part) then
      ({ s with fab := { s.fab with combine := s.fab.combine ++ [⟨u, line, h.part, 1, BitVec.ofNat 1024 v, po⟩] } }, v, po)
    else (s, v, po)

/-- Lines [line, line + n) in a row, low line first: the bytes and the poisoned words. -/
def State.linesRead (s : State) (h : Hdr) (base line n : Nat) (alone : Bool) : State × Nat × Nat :=
  match n with
  | 0 => (s, 0, 0)
  | k + 1 =>
    let r := s.lineRead h base line alone
    let t := r.1.linesRead h base (line + 1) k alone
    (t.1, r.2.1 + t.2.1 * 2 ^ 1024, r.2.2 + t.2.2 * 16)

/-- Packets of a read response for bytes [off, off+n) of a run `v` that begins at byte 32·w0: only the bytes
asked for travel (log entry 14). -/
def rspPackets (off n w0 v po : Nat) : List (W256 × BitVec 36) :=
  let x := v / 256 ^ (off - 32 * w0) % 256 ^ n * 256 ^ (off % 32)
  (List.range ((off % 32 + n + 31) / 32)).map (fun i =>
    (BitVec.ofNat 256 (x / 2 ^ (256 * i)), if po / 2 ^ (off / 32 - w0 + i) % 2 == 1 then 1#36 else 0#36))

/-- Registers of a cache control page as partition `part` reads them (R229). -/
def State.cacheView (s : State) (d off part : Nat) : W64 :=
  let mine := fun (q : Nat) => part == 127 || q == part
  if off == 8 then
    BitVec.ofNat 64 (2 * ((s.lines d).filter (fun l => mine l.part)).length
      + b2n (s.fab.invs.any (fun v => v.die == d)))
  else if off == 0x10 then
    let l := (s.fab.cacheCnt.range (128 * d) (128 * d + 128)).filter (fun e => mine (e.1 % 128))
    BitVec.ofNat 64 ((l.map (fun e => e.2.1)).sum % 2 ^ 32 * 2 ^ 32 + (l.map (fun e => e.2.2)).sum % 2 ^ 32)
  else 0#64

/-- Bytes [0, 24) of a control page as a number. -/
def State.cachePageVal (s : State) (d part : Nat) : Nat :=
  (s.cacheView d 8 part).toNat * 2 ^ 64 + (s.cacheView d 0x10 part).toNat * 2 ^ 128

/-- The injection queue has room for n packets of an answer that a unit of the compute die sends; a request whose answer
finds none waits (R266). -/
def State.ansRoom (s : State) (h : Hdr) (n : Nat) : Bool :=
  !(h.dep < 0x20 || h.dep == 0x30 || h.dep == 0x31) || s.injRoom h.drouter n

/-- A read request is performed at its destination and answered (R230, R236, R238, R253). -/
def State.readReq (s : State) (p : Packet) : State :=
  let h := p.h
  let off := p.data.toNat % 2 ^ 64
  let n := p.data.toNat / 2 ^ 64 % 2 ^ 16 + 1
  let alone := p.data.toNat / 2 ^ 81 % 2 == 1
  let t := s.dropPacket p.id
  if !s.ansRoom h (if 512 < n then 1 else (off % 32 + n + 31) / 32) then s
  else if 512 < n then t.refused h rfMalformed
  else match s.gate h off n with
  | .hold => s
  | .refuse r => t.refused h r
  | .serve base =>
    if h.dep == 0x31 then t.answer h ptRDRSP (rspPackets off n 0 (s.cachePageVal h.drouter h.part) 0)
    else if h.dep == 0x32 then
      let w0 := off / 32
      t.answer h ptRDRSP (rspPackets off n w0 (memRead s.mem (base + 32 * w0) (32 * ((off % 32 + n + 31) / 32))) 0)
    else
      let l := off / 128
      let r := t.linesRead h base l ((off + n - 1) / 128 + 1 - l) alone
      r.1.answer h ptRDRSP (rspPackets off n (4 * l) r.2.1 r.2.2)

/-- An answer, which names a site and no slot (R247). -/
def Hdr.isAnswer (h : Hdr) : Bool := h.type == ptRDRSP || h.type == ptACK || h.type == ptATRSP || h.type == ptREFUSE

/-- The site behind a SITE or EDGE endpoint of a packet. -/
def State.epCore (s : State) (h : Hdr) : Option Nat :=
  if 0x20 ≤ h.dep then none
  else if 0x10 ≤ h.dep then some (16 * h.drouter + h.dep % 16)
  else if h.isAnswer then some (16 * h.drouter + h.dep)
  else s.epSite h.drouter h.dep h.part

/-- The clock of the row that a packet is for runs, if it is for a row (R340). -/
def State.epRuns (s : State) (h : Hdr) : Bool :=
  match s.epCore h with
  | some g => s.flag (spinePage (dieOfSite g)) (rowRun (8 ≤ g % 16))
  | none => true

/-- A packet of a type at its endpoint, whose row runs. -/
def atEndpoint (n type : Nat) (f : Packet → State) (s : State) : Out :=
  match s.packet n with
  | none => .next s
  | some p => if p.loc == .endpoint && p.h.type == type && s.epRuns p.h then .next (f p) else .next s

/-- RDREQ. -/
def execRdreq (n : Nat) (s : State) : Out := atEndpoint n ptRDREQ (fun p => s.readReq p) s

/-- Count a packet discarded for a closed tag (R252). -/
def State.late (s : State) (d : Nat) : State := s.addSat (spinePage d) NET_STATUS_LATE 1

/-- A destination's bytes are written (R236, R237). -/
def State.epStore (s : State) (h : Hdr) (base off n v : Nat) : State :=
  if h.dep < 0x10 then s.spStore ((s.epSite h.drouter h.dep h.part).getD 0) off n v
  else s.store (base + off) n v 32

/-- A write to a cache control page: an invalidation is acknowledged when it is done (R228, R229). The answer
says whether the acknowledgement waits. -/
def State.cachePageWrite (s : State) (h : Hdr) (off n v : Nat) : State × Bool :=
  let w := if off == 0 then v % 256 ^ n else 0
  let all := w / 2 % 2 == 1 && h.part == 127
  let mine := w % 2 == 1
  if all || mine then
    let s := s.cacheDrop h.drouter (fun _ q => all || q == h.part)
    ({ s with fab := { s.fab with invs := s.fab.invs ++ [⟨h.drouter, none, some (h.srouter, h.sep, h.tag)⟩] } }, true)
  else (s, false)

/-- Address, length and value of the bytes a write packet carries (R249, R250); none where its fields are out
of range. -/
def writeBytes (p : Packet) : Option (Nat × Nat × Nat) :=
  let a := p.h.arg.toNat
  if p.h.type == ptWR then
    let lo := if p.h.pidx == 0 then a / 2 ^ 6 % 32 else 0
    let hi := if p.h.last then a / 2 % 32 else 31
    if hi < lo then none
    else some (32 * (a / 2 ^ 11 + p.h.pidx) + lo, hi + 1 - lo, p.data.toNat / 256 ^ lo)
  else
    let n := a % 32 + 1
    if 24 < n then none else some (p.data.toNat % 2 ^ 64, n, p.data.toNat / 2 ^ 64)

/-- The open write of a packet at its destination (R251). -/
def Rx.isOf (x : Rx) (h : Hdr) : Bool :=
  x.srouter == h.srouter && x.sep == h.sep && x.tag == h.tag && x.drouter == h.drouter && x.dep == h.dep
def State.setRx (s : State) (h : Hdr) (x : Option Rx) : State :=
  { s with fab := { s.fab with rxs := s.fab.rxs.filter (fun y => !y.isOf h) ++ x.toList } }

/-- Perform a write packet: what it answers, and whether the acknowledgement waits for an invalidation. A program writes
CACHE_CMD alone of a cache control page (R229). -/
def State.writePerform (s : State) (p : Packet) : State × Option Nat × Bool :=
  match writeBytes p with
  | none => (s, some rfMalformed, false)
  | some (off, n, v) =>
    match s.gate p.h off n with
    | .refuse r => (s, some r, false)
    | .hold => (s, none, false)
    | .serve base =>
      if p.h.dep == 0x31 then
        if p.h.part != 127 && 8 < off + n then (s, some rfMalformed, false) else
        let r := s.cachePageWrite p.h off n v
        (r.1, none, r.2)
      else (s.epStore p.h base off n v, none, false)

/-- A write packet arrives (R251, R253): counted, performed, and the transaction answered once complete. A second
LAST, an index at or above the total, or more than 16 packets ends it with an error at once. -/
def State.writeArrive (s : State) (p : Packet) : State :=
  let h := p.h
  let t := s.dropPacket p.id
  let x := (s.fab.rxs.find? (fun y => y.isOf h)).getD
    ⟨h.srouter, h.sep, h.tag, h.drouter, h.dep, h.part, 0, none, none, false⟩
  let held : Bool := match writeBytes p with
    | some (off, n, _) => s.gate h off n == .hold
    | none => false
  if held || !s.ansRoom h 1 then s
  else if x.closed then t.late h.drouter
  else if (h.last && x.total.isSome) || (match x.total with | some k => k ≤ h.pidx | none => false) || 16 ≤ x.count then
    (t.setRx h (some { x with closed := true })).ack h true
  else
    let r := t.writePerform p
    let x := { x with
      count := x.count + 1
      total := if h.last then some (h.pidx + 1) else x.total
      refused := if x.refused.isSome then x.refused else r.2.1 }
    if x.total == some x.count then
      let s := r.1.setRx h none
      match x.refused with
      | some q => s.refused h q
      | none => if r.2.2 then s else s.ack h false
    else r.1.setRx h (some x)

/-- WR and HWR. -/
def execWr (n : Nat) (s : State) : Out := atEndpoint n ptWR (fun p => s.writeArrive p) s
def execHwr (n : Nat) (s : State) : Out := atEndpoint n ptHWR (fun p => s.writeArrive p) s

/-- The mask, the column flag and the rest of a multicast packet's ARG (R248). -/
def mcMask (h : Hdr) : Nat := h.arg.toNat / 2 ^ 12
def mcCol (h : Hdr) : Bool := h.arg.toNat / 2 ^ 11 % 2 == 1
def mcSet (h : Hdr) (mask : Nat) : Hdr := { h with arg := BitVec.ofNat 36 (mask * 2 ^ 12 + h.arg.toNat % 2 ^ 12) }

/-- A link direction that leaves router r by port p: it carries traffic. -/
def State.link (s : State) (r p : Nat) : Link := s.fab.links.getD (4 * r + p) Link.reset

/-- Hold a tag out of use (R252). -/
def State.holdTag (s : State) (t : Tx) : State :=
  { s with fab := { s.fab with heldTags := s.fab.heldTags ++ [(t.srouter, t.sep, t.tag)] } }

/-- The cache fill of a transaction. -/
def State.fillOf (s : State) (t : Tx) : Option CFill :=
  match t.use with
  | .fill d => s.fab.fills.find? (fun f => f.die == d && f.tag == t.tag)
  | _ => none
def State.dropFill (s : State) (f : CFill) : State :=
  { s with fab := { s.fab with fills := s.fab.fills.filter (fun x => !(x.die == f.die && x.tag == f.tag)) } }

/-- The core of a use may go on, and its operation may have completed. -/
def State.useGoOn (s : State) (u : TxUse) : State :=
  match u with
  | .dma g i => (s.dmaCheck g i).pump g
  | .edge g _ _ => s.pump g
  | .sig g _ _ => s.pump g
  | .fill _ => s

/-- A transaction fails: its core faults, or every requester of its fill (R112, R176, R227). -/
def State.txFail (s : State) (t : Tx) (kind : Nat) : State :=
  match t.use with
  | .fill _ =>
    match s.fillOf t with
    | none => s
    | some f => f.waiters.foldl (fun s w => s.useFault w.use kind w.rep) (s.dropFill f)
  | _ => s.useFault t.use kind t.rep

/-- One answer of those a transaction waits for has come (R243): with the last, it closes. -/
def State.answered (s : State) (t : Tx) : State :=
  if 1 < t.acks then s.updTx t.srouter t.sep t.tag (fun x => { x with acks := x.acks - 1 }) else s.txDone t

/-- An answer reaches its issuer: the open transaction of its tag, or it is late (R252). -/
def State.atIssuer (s : State) (p : Packet) (f : Tx → State → State) : State :=
  let s := s.dropPacket p.id
  match s.txAt p.h.drouter p.h.dep p.h.tag with
  | some t => f t s
  | none => s.late p.h.drouter

/-- PKT_ACK (R111, R251): an ACK with ERR faults the issuer DMA_TIMEOUT, and the tag is held out of use. -/
def execPktAck (n : Nat) (s : State) : Out :=
  atEndpoint n ptACK (fun p => s.atIssuer p (fun t s =>
    if p.h.arg.getLsbD 0 then ((s.txFail t fkTimeout).closeTx t).holdTag t else s.answered t)) s

/-- REFUSE (R112, R253). -/
def execRefuse (n : Nat) (s : State) : Out :=
  atEndpoint n ptREFUSE (fun p => s.atIssuer p (fun t s => (s.txFail t fkRefused).answered t)) s

/-- The poison a transaction's data carries, by where it was read (R191, R222). -/
def poisonKind (a : W64) (p : Bool) : Poison :=
  if !p then .none else if addrSpace a == 2 || addrSpace a == 3 then .pad else .slice

/-- ATRSP (R110, R232, R234): the old value lands when RET asked for it. -/
def execAtrsp (n : Nat) (s : State) : Out :=
  atEndpoint n ptATRSP (fun p => s.atIssuer p (fun t s =>
    (if t.len == 0 then s else s.land t.use t.land t.len (p.data.toNat % 2 ^ 64) .none t.addr).answered t)) s

/-- The value of a filled line, from its words. -/
def CFill.value (f : CFill) : Nat :=
  (List.range 4).foldr (fun i a => (f.words.getD i 0#256).toNat + a * 2 ^ 256) 0

/-- Deliver bytes of a line to a requester, word by word, each with its poison (R222, R227). -/
def State.deliver (s : State) (w : Waiter) (v po : Nat) : State :=
  (List.range 4).foldl (fun s i =>
    let lo := max w.off (32 * i)
    let hi := min (w.off + w.len) (32 * i + 32)
    if hi ≤ lo then s
    else s.land w.use (w.land + (lo - w.off)) (hi - lo) (v / 256 ^ lo)
      (poisonKind w.addr (po / 2 ^ i % 2 == 1)) w.addr) s

/-- Ways that a partition may fill on a die (R216, R224). -/
def State.cacheWays (s : State) (d part : Nat) : Nat :=
  match (List.range 4).find? (fun w =>
      s.flag (spinePage d) (WIN_HDR_VALID w) && s.fld (spinePage d) (WIN_HDR_PART w) == part) with
  | some w => s.fld (spinePage d) (WIN_HDR_CACHE_WAYS w)
  | none => 0

/-- A fill has all its data: delivered to each requester, and installed unless poisoned, invalidated or without
a way (R224, R227, R228). -/
def State.fillDone (s : State) (f : CFill) : State :=
  let v := f.value
  let s := s.dropFill f
  let s := f.waiters.foldl (fun s w => s.deliver w v f.poison) s
  let ways := s.cacheWays f.die f.part
  let s := if f.install && f.poison == 0 && ways != 0 then s.cacheInstall f ways (BitVec.ofNat 1024 v) else s
  f.waiters.foldl (fun s w => s.useGoOn w.use) s

/-- The data of one response packet (R248): bytes of the read that lie in its word. -/
def State.rspData (s : State) (t : Tx) (p : Packet) : State :=
  let po := p.h.arg.getLsbD 0
  match t.use with
  | .fill d =>
    { s with fab := { s.fab with fills := s.fab.fills.map (fun f =>
        if f.die == d && f.tag == t.tag then
          { f with words := f.words.set p.h.pidx p.data, poison := f.poison + (if po then 2 ^ p.h.pidx else 0) }
        else f) } }
  | _ =>
    let lo := max t.first (32 * p.h.pidx)
    let hi := min (t.first + t.len) (32 * p.h.pidx + 32)
    if hi ≤ lo then s
    else s.land t.use (t.land + (lo - t.first)) (hi - lo) (p.data.toNat / 256 ^ (lo - 32 * p.h.pidx)) (poisonKind t.addr po) t.addr

/-- RDRSP (R110, R251): counted; a protocol error faults the requester DMA_TIMEOUT; the last packet of the count
ends the read. -/
def execRdrsp (n : Nat) (s : State) : Out :=
  atEndpoint n ptRDRSP (fun p => s.atIssuer p (fun t s =>
    if (p.h.last && t.total.isSome) || (match t.total with | some k => k ≤ p.h.pidx | none => false) || 16 ≤ t.count then
      ((s.txFail t fkTimeout).closeTx t).holdTag t
    else
      let total := if p.h.last then some (p.h.pidx + 1) else t.total
      let s := (s.updTx t.srouter t.sep t.tag (fun x => { x with count := x.count + 1, total := total })).rspData t p
      if total == some (t.count + 1) then
        match s.fillOf t with
        | some f => (s.closeTx t).fillDone f
        | none => s.txDone t
      else s)) s

/-- PKT_SIGNAL (R114, R127): the target core's counter advances, and the signal is acknowledged. -/
def execPktSignal (n : Nat) (s : State) : Out :=
  atEndpoint n ptSIGNAL (fun p =>
    let h := p.h
    if !s.ansRoom h 1 then s else
    let s := s.dropPacket p.id
    match (if h.dep < 0x10 then s.epSite h.drouter h.dep h.part else none) with
    | none => s.refused h (if h.dep < 0x10 then rfSlot else s.noAccess h)
    | some g =>
      if h.part != 127 && (s.core g).part != h.part then s.refused h rfPartition
      else (s.kInc g (h.arg.toNat % 16) engDma (s.core g).pc 0#64 0#32 0).ack h false) s

/-- The operation, address, width and operands of an atomic packet (R250). -/
def atomAop (p : Packet) : Nat := p.data.toNat / 2 ^ 192 % 32
def atomLen (p : Packet) : Nat := if p.data.getLsbD 200 then 8 else 4

/-- The new value of a word (R232, R233); `w` is its width in bits. -/
def atomOp (aop w v x c : Nat) : Nat :=
  let fp := fun (a : Nat) => val32 (BitVec.ofNat 32 a)
  let enc := fun (d : Dy) => (rne32 d).1.toNat
  match aop with
  | 0x00 => (v + x) % 2 ^ w
  | 0x01 => enc ((fp v).add (fp x))
  | 0x02 => if sgn x w < sgn v w then x else v
  | 0x03 => min v x
  | 0x04 => enc (if (fp x).lt (fp v) then fp x else fp v)
  | 0x05 => if sgn v w < sgn x w then x else v
  | 0x06 => max v x
  | 0x07 => enc (if (fp v).lt (fp x) then fp x else fp v)
  | 0x08 => x
  | 0x09 => if v == c then x else v
  | 0x0A => if (v + 1) % 2 ^ w == x then 0 else (v + 1) % 2 ^ w
  | _ => v

/-- An atomic is performed at its slice, and its reply leaves (R222, R231, R233, R234, R253). -/
def State.atom (s : State) (p : Packet) : State :=
  let h := p.h
  let t := s.dropPacket p.id
  let off := p.data.toNat % 2 ^ 64
  let n := atomLen p
  if !s.ansRoom h 1 then s
  else if h.dep < 0x20 || 0x30 ≤ h.dep then t.refused h (s.noAccess h)
  else if 0x0A < atomAop p || off % n != 0 then t.refused h rfMalformed
  else match s.gate h off n with
  | .hold => s
  | .refuse r => t.refused h r
  | .serve base =>
    if (s.poisonAt (base + off) n 32).isSome then t.refused h rfPoison
    else
      let t := t.epCorrect h base off n
      let v := memRead t.mem (base + off) n
      let x := p.data.toNat / 2 ^ 64 % 2 ^ (8 * n)
      let c := p.data.toNat / 2 ^ 128 % 2 ^ (8 * n)
      (t.epStore h base off n (atomOp (atomAop p) (8 * n) v x c)).answer h ptATRSP [(BitVec.ofNat 256 v, 0#36)]

/-- An atomic of the operation a row names; a reserved operation is refused by any row. -/
def atomRow (n aop : Nat) (s : State) : Out :=
  atEndpoint n ptATOM (fun p => if atomAop p == aop || 0x0A < atomAop p then s.atom p else s) s

def execAtomAdd (n : Nat) (s : State) : Out := atomRow n 0x00 s
def execAtomFadd (n : Nat) (s : State) : Out := atomRow n 0x01 s
def execAtomMin (n : Nat) (s : State) : Out := atomRow n 0x02 s
def execAtomMinu (n : Nat) (s : State) : Out := atomRow n 0x03 s
def execAtomFmin (n : Nat) (s : State) : Out := atomRow n 0x04 s
def execAtomMax (n : Nat) (s : State) : Out := atomRow n 0x05 s
def execAtomMaxu (n : Nat) (s : State) : Out := atomRow n 0x06 s
def execAtomFmax (n : Nat) (s : State) : Out := atomRow n 0x07 s
def execAtomSwap (n : Nat) (s : State) : Out := atomRow n 0x08 s
def execAtomCas (n : Nat) (s : State) : Out := atomRow n 0x09 s
def execAtomCinc (n : Nat) (s : State) : Out := atomRow n 0x0A s

/-- The timer of a transaction runs (R242, R252): not while its core is FROZEN, not in thermal hold, and not
while a space-0x8 transfer is held. -/
def State.txTimed (s : State) (t : Tx) : Bool :=
  s.therm.hold == 0 && (match t.use with
    | .fill _ => true
    | u => (s.core (s.useRec u).1).seq != .frozen)
  && !(addrSpace t.addr == 8 && s.hostGate (bits t.addr 59 58) t.part == .hold)

/-- TX_TIMEOUT (R112, R252): the core faults DMA_TIMEOUT, and the tag stays out of use. -/
def execTxTimeout (srouter sep tag : Nat) (s : State) : Out :=
  match s.txAt srouter sep tag with
  | none => .next s
  | some t =>
    if s.txTimed t then
      let s := s.addSat (spinePage srouter) NET_STATUS_TIMEOUTS 1
      .next (((s.txFail t fkTimeout).closeTx t).holdTag t)
    else .next s

/-- DEST_WRITE_TIMEOUT (R242, R252): an open write is closed with an ACK with ERR set, when its timer runs: as its
issuer's does, and not while the host port holds it. -/
def execDestWriteTimeout (srouter sep tag drouter dep : Nat) (s : State) : Out :=
  let h := mkHdr srouter sep drouter dep 127 tag vcREQ ptWR
  match s.fab.rxs.find? (fun x => x.isOf h) with
  | none => .next s
  | some x =>
    let h := { h with part := x.part }
    let runs := match s.txAt srouter sep tag with
      | some t => s.txTimed t
      | none => s.therm.hold == 0
    if x.closed || !runs || (dep == 0x32 && ((portAt drouter).map (fun p => s.hostGate p x.part == .hold)).getD false)
        || !s.ansRoom h 1 then .next s
    else .next (((s.setRx h (some { x with closed := true })).addSat (spinePage drouter) NET_STATUS_TIMEOUTS 1).ack h true)

/-- TAG_RELEASE (R252): a held tag returns to use, and what its destinations had closed is forgotten. -/
def execTagRelease (srouter sep tag : Nat) (s : State) : Out :=
  .next { s with fab := { s.fab with
    heldTags := s.fab.heldTags.filter (fun t => t != (srouter, sep, tag))
    rxs := s.fab.rxs.filter (fun x => !(x.closed && x.srouter == srouter && x.sep == sep && x.tag == tag)) } }

/-- An invalidation that firmware starts (R228, R229). -/
def State.invStart (s : State) (d : Nat) (p : Nat → Bool) : State :=
  let s := s.cacheDrop d (fun _ q => p q)
  { s with fab := { s.fab with invs := s.fab.invs ++ [⟨d, none, none⟩] } }

/-- INV_ALL and INV_PART. -/
def execInvAll (d : Nat) (s : State) : Out := onUnit (dieOk d) (fun s => s.invStart d (fun _ => true)) s
def execInvPart (d part : Nat) (s : State) : Out := onUnit (dieOk d) (fun s => s.invStart d (fun q => q == part)) s

/-- CACHE_INV_DONE (R110, R228, R229): the oldest invalidation of the die is done. -/
def execCacheInvDone (d : Nat) (s : State) : Out :=
  onUnit (dieOk d) (fun s =>
    match s.fab.invs.find? (fun v => v.die == d) with
    | none => s
    | some v =>
      if v.ack.isSome && !s.injRoom d 1 then s else
      let s := { s with fab := { s.fab with invs := s.fab.invs.erase v } }
      let s := match v.op with
        | some (g, i) => (s.dmaCheck g i).pump g
        | none => s
      match v.ack with
      | some (sr, sep, tag) => s.ack (mkHdr sr sep d 0x31 127 tag vcREQ ptWR) false
      | none => s) s

/-- COMBINE_WINDOW_END (R230): entry i closes. -/
def execCombineWindowEnd (i : Nat) (s : State) : Out :=
  .next { s with fab := { s.fab with combine := s.fab.combine.eraseIdx i } }

/-- HBM_REFRESH (R223): refresh keeps every byte; the model counts it. -/
def execHbmRefresh (k : Nat) (s : State) : Out :=
  onUnit (sliceOk k && s.part.hasStack (k / 64)) (fun s =>
    { s with hbm := { s.hbm with refreshes := s.hbm.refreshes.set k (s.hbm.refreshes.getD k 0 + 1) } }) s

/-- HBM_PATROL_SCRUB (R222, R223): every corrected sector of the slice is counted and rewritten. -/
def execHbmPatrolScrub (k : Nat) (s : State) : Out :=
  onUnit (sliceOk k && s.part.hasStack (k / 64)) (fun s =>
    let mine := fun (q : Nat) => hbmBase k ≤ q && q < hbmBase k + sliceSize
    let s := (s.weak.filter mine).foldl (fun s a => s.hbmCorrected k a 127) s
    { s with weak := s.weak.filter (fun q => !mine q) }) s

end Sys2Proof.Machine
end

