-- ==== Sys2Proof/Machine/Fabric.lean ====
section
/-! DEFINITION. Routers and links (R254–R264), injection (R266, R270), the escape channel and its tables (R261–R263),
the Transit plane (R267–R269), and lane and wavelength replacement (R257, R269). -/

namespace Sys2Proof.Machine

/-- The router beyond port p of router r (R254). -/
def nbr (r p : Nat) : Option Nat :=
  match p with
  | 0 => if 24 ≤ r then some (r - 24) else none
  | 1 => if r % 24 < 23 then some (r + 1) else none
  | 2 => if r + 24 < 384 then some (r + 24) else none
  | 3 => if 0 < r % 24 then some (r - 1) else none
  | _ => none

/-- The far end's port of the link at port p. -/
def oppPort (p : Nat) : Nat := (p + 2) % 4

/-- The link crosses the Meridian (R14). -/
def crosses (r p : Nat) : Bool := (r % 24 == 11 && p == 1) || (r % 24 == 12 && p == 3)

/-- A link direction carries packets: it is up, and not opened at the Meridian (R15, R256). -/
def State.linkUp (s : State) (r p : Nat) : Bool :=
  (nbr r p).isSome && (s.link r p).up && !(s.fab.isolated && crosses r p)

/-- A router in service (R264, R275). -/
def State.hole (s : State) (r : Nat) : Bool := s.flag (routerPage r) RT_STATUS_HOLE

/-- The fabric clock of a router runs (R258): the router is in service, and thermal hold has not stopped it. -/
def State.routerRuns (s : State) (r : Nat) : Bool := !s.hole r && s.therm.hold < 2

/-- The bank of route tables in effect at a router. -/
def State.bank (s : State) (r : Nat) : Nat := s.fld (routerPage r) RT_STATUS_TBL_ACTIVE

/-- A packet boundary of a router (R10, R263): its Staged fields take effect, TBL_SEL among them. -/
def State.routerBoundary (s : State) (r : Nat) : State :=
  let bp := routerPage r
  let s := s.applyStaged bp (bp + 0x1000)
  if s.fld bp RT_CFG_TBL_SEL == s.bank r then s else s.setFld bp RT_STATUS_TBL_ACTIVE (s.fld bp RT_CFG_TBL_SEL)

/-- The buffer of a router input that a packet takes (R259): REQ, RSP, BULK, or one of the two classes of ESC. -/
def Hdr.buf (h : Hdr) : Nat := if h.vc == vcESC then (if h.isAnswer then 4 else 3) else h.vc

/-- The packet stands in buffer c of input `inp` of router r. -/
def Packet.inBuf (k : Packet) (r inp c : Nat) : Bool := k.loc == .router r inp && k.h.buf == c

/-- A packet held on a link direction, and the times it has failed there. -/
def Packet.onLink (k : Packet) (r p : Nat) : Bool := match k.loc with | .link a b _ _ => a == r && b == p | _ => false
def Packet.fails (k : Packet) : Nat := match k.loc with | .link _ _ _ f => f | _ => 0
def Packet.seqno (k : Packet) : Nat := match k.loc with | .link _ _ q _ => q | _ => 0

/-- A packet in router r. -/
def Packet.inRouter (k : Packet) (r : Nat) : Bool := match k.loc with | .router a _ => a == r | _ => false

/-- Packets of a buffer of an input. -/
def State.bufOcc (s : State) (r inp c : Nat) : Nat := (s.fab.packets.filter (fun k => k.inBuf r inp c)).length

/-- Slots of a channel's buffer at the router beyond port p that are taken: by packets in it and by those on the link
(R260). -/
def State.queued (s : State) (r p c : Nat) : Nat :=
  (s.fab.packets.filter (fun k => k.onLink r p && k.h.buf == c)).length
    + (match nbr r p with | some q => s.bufOcc q (oppPort p) c | none => 0)

/-- The buffer beyond port p shows a credit (R259, R260). -/
def State.credit (s : State) (r p c : Nat) : Bool := s.queued r p c < Config.bufferDepth c

/-- An input's buffer has room. -/
def State.bufRoom (s : State) (r inp c : Nat) : Bool := s.bufOcc r inp c < Config.bufferDepth c

/-- The packet is at the head of its buffer. -/
def State.isHead (s : State) (k : Packet) : Bool :=
  match k.loc with
  | .router r inp => (s.fab.packets.find? (fun x => x.inBuf r inp k.h.buf)) == some k
  | _ => false

/-- Adaptive candidates at router r toward d (R260). -/
def State.adapt (s : State) (r d : Nat) : List Nat :=
  (List.range 4).filter (fun p => s.fld (routerPage r) (RT_ADAPT (s.bank r) d) / 2 ^ p % 2 == 1 && s.linkUp r p)

/-- The candidate a packet takes: most credits, which are fewest slots taken, then the larger remaining offset, then E or
W (R260). -/
def State.pick (s : State) (r d vc : Nat) : Option Nat :=
  let dx := if dieX r ≤ dieX d then dieX d - dieX r else dieX r - dieX d
  let dy := if dieY r ≤ dieY d then dieY d - dieY r else dieY r - dieY d
  let rank := fun p => (s.queued r p vc * 2 + (if (p % 2 == 1) == (dy ≤ dx) then 0 else 1)) * 2 + (if p % 2 == 1 then 0 else 1)
  (s.adapt r d).foldl (fun (best : Option Nat) p =>
    match best with
    | none => some p
    | some q => if rank p < rank q then some p else some q) none

/-- Block distance (R270). -/
def blockDist (a b : Nat) : Nat :=
  (if a % 8 ≤ b % 8 then b % 8 - a % 8 else a % 8 - b % 8) + (if a / 8 ≤ b / 8 then b / 8 - a / 8 else a / 8 - b / 8)

/-- A pair of blocks is open (R269, R276). -/
def State.pairOpen (s : State) (b t : Nat) : Bool := b != t && s.fld (photPage b) (PH_PAIR_NWORK t) != 0

/-- The wavelengths of a pair carry packets: the pair does not cross an open Meridian (R15). -/
def State.transitUp (s : State) (b t : Nat) : Bool := !(s.fab.isolated && eastBlock b != eastBlock t)

/-- The column of the photonic engine of router r's block (R260). -/
def engineX (r : Nat) : Nat := 3 * (blockOf r % 8) + 1

/-- The port by which a packet that is no multicast copy leaves router r, 4 for LOCAL (R260, R261, R264). -/
def State.outPort (s : State) (r : Nat) (h : Hdr) : Option Nat :=
  let d := h.drouter
  if h.vc == vcESC then
    (if d == r then some 4
     else some (s.fld (routerPage r) (if h.rb == 2 then RT_ESC_UP (s.bank r) d else RT_ESC_DOWN (s.bank r) d)))
  else if h.rb == 1 then (if dieX r == engineX r then some 4 else some (if dieX r < engineX r then 1 else 3))
  else if d == r then some 4
  else s.pick r d h.buf

/-- A multicast copy that still fans out at the routers it meets (R265). -/
def Hdr.fans (h : Hdr) : Bool := h.type == ptMCAST && h.vc != vcESC

/-- What a multicast copy at router r has for each side, as (mask, port) (R265). -/
def mcSides (r : Nat) (h : Hdr) : List (Nat × Nat) :=
  let col := mcCol h
  let me := linePos r col
  let m := mcMask h
  [(m % 2 ^ me, if col then 0 else 3), (m / 2 ^ (me + 1) * 2 ^ (me + 1), if col then 2 else 1)].filter (fun e => e.1 != 0)

/-- Ports a packet in router r waits to leave by. -/
def State.wants (s : State) (r : Nat) (h : Hdr) : List Nat :=
  if h.fans then (mcSides r h).map (·.2) else (s.outPort r h).toList

/-- Packets of a channel queued at port p of router r: on the link, and in the router to leave by it (R270). -/
def State.portQ (s : State) (r p c : Nat) : Nat :=
  (s.fab.packets.filter (fun k => k.h.buf == c && (k.onLink r p || (k.inRouter r && (s.wants r k.h).contains p)))).length

/-- The router chooses the Transit plane for a packet it injects (R270). While the Meridian is open no pair crosses it
(R15). -/
def State.choosesTransit (s : State) (r : Nat) (h : Hdr) : Bool :=
  let bp := routerPage r
  let d := h.drouter
  let b := blockOf r
  let t := blockOf d
  let qm := match (s.adapt r d).map (fun p => s.portQ r p h.buf) with
    | [] => 0
    | x :: l => l.foldl min x
  h.rb == 0 && h.vc != vcESC && h.type != ptMCAST && b != t
    && s.flag bp (RT_TRANSIT (s.bank r) d)
    && s.fld bp RT_CFG_TR_MINDIST ≤ blockDist b t && s.pairOpen b t && s.transitUp b t
    && s.fab.occ.getD (32 * b + t) 0 + s.fld bp RT_CFG_TR_BIAS ≤ qm + meshDist r d

/-- Packets from a router's die that wait to be injected. -/
def State.waiting (s : State) (r : Nat) : List Packet := s.fab.packets.filter (fun k => k.loc == .injq r && k.fromDie)

/-- The weight of a partition at a router; traffic of no partition has none (R266). -/
def State.weightAt (s : State) (r part : Nat) : Nat := s.fld (routerPage r) (INJ_SHARE part)

/-- Admissions in the round of R266 that a partition has had at a router. -/
def State.roundOf (s : State) (r part : Nat) : Nat := s.fab.round.getD (128 * r + part) 0

/-- A die's packet may be admitted at a throttled router (R266): within INJ_RATE packets in 16 fabric cycles, which are
four times as many in a tick of 64; a weighted partition until it has had its weight in the round, and one with weight 0
only when no weighted partition has any queued. Traffic of no partition has no share and is held only by the rate. -/
def State.admits (s : State) (r : Nat) (p : Packet) : Bool :=
  let bp := routerPage r
  if !p.fromDie || !s.flag bp RT_STATUS_THROTTLING then true
  else
    let rest := (s.waiting r).filter (fun k => k.h.part < 64 && s.weightAt r k.h.part != 0)
    s.fab.admitted.getD r 0 < 4 * max 1 (s.fld bp RT_CFG_INJ_RATE)
      && (64 ≤ p.h.part || (if s.weightAt r p.h.part == 0 then rest.isEmpty
          else s.roundOf r p.h.part < s.weightAt r p.h.part))

/-- An admission counts; the round ends when every weighted partition with queued packets has had its weight (R266). -/
def State.admitted (s : State) (r : Nat) (p : Packet) : State :=
  if !p.fromDie || !s.flag (routerPage r) RT_STATUS_THROTTLING then s
  else
    let s := { s with fab := { s.fab with
      admitted := s.fab.admitted.set r (s.fab.admitted.getD r 0 + 1)
      round := s.fab.round.set (128 * r + p.h.part) (s.roundOf r p.h.part + 1) } }
    if (s.waiting r).any (fun k => k.h.part < 64 && s.roundOf r k.h.part < s.weightAt r k.h.part) then s
    else { s with fab := { s.fab with round := s.fab.round.eraseRange (128 * r) (128 * r + 128) } }

/-- The command that a packet's traffic is of: that of the core that sends it, or else of the core that it goes to (R327). -/
def State.cmdOf (s : State) (h : Hdr) : W32 :=
  if h.sep < 0x20 then (s.core (16 * h.srouter + h.sep % 16)).handle
  else match s.epCore h with
  | some g => (s.core g).handle
  | none => 0#32

/-- Count a packet of a partition at the base die under router r, and for its command (R327). -/
def State.traffic (s : State) (r : Nat) (h : Hdr) : State :=
  if h.part < 64 || h.part == 127 then
    let s := s.addWrap (basePage (baseOf r)) (TRAFFIC_W h.part) 1
    let c := (s.cmdOf h).toNat
    if c == 0 then s
    else { s with panel := { s.panel with cmdTraffic := s.panel.cmdTraffic.set c (s.panel.cmdTraffic.getD c 0 + 1) } }
  else s

/-- PACKET_INJECT (R110, R259, R266, R270): the first queued packet of a partition enters the router's LOCAL input. -/
def execPacketInject (r part : Nat) (s : State) : Out :=
  onUnit (dieOk r) (fun s =>
    match s.fab.packets.find? (fun p => p.loc == .injq r && p.h.part == part) with
    | none => s
    | some p =>
      if !s.routerRuns r || s.flag (routerPage r) RT_CFG_INJ_STOP || !s.admits r p || !s.bufRoom r 4 p.h.buf then s
      else
        let s := s.routerBoundary r
        let h := { p.h with rb := if s.choosesTransit r p.h then 1 else p.h.rb }
        let s := (s.sendTo { p with h := h } (.router r 4)).admitted r p
        let s := (s.injThrottle r).traffic r p.h
        let s := match s.txAt p.h.srouter p.h.sep p.h.tag with
          | some t => (match t.use with | .dma g i => s.dmaCheck g i | _ => s)
          | none => s
        s.pumpDie r) s

/-- Count one forwarded packet on a channel (R275). -/
def State.forwarded (s : State) (r vc : Nat) : State := s.addWrap (routerPage r) (RT_COUNT_W vc) 1

/-- Drop a packet at router r, counted in RT_DROPPED (R263, R264). -/
def State.dropAt (s : State) (r n : Nat) : State := (s.dropPacket n).addWrap (routerPage r) (RT_COUNT_W 6) 1

def State.setLink (s : State) (r p : Nat) (l : Link) : State :=
  { s with fab := { s.fab with links := s.fab.links.set (4 * r + p) l } }

/-- A packet may leave router r by port p: the link runs, and the buffer beyond it shows a credit. -/
def State.portFree (s : State) (r p c : Nat) : Bool := s.linkUp r p && s.credit r p c

/-- A packet for a row whose clock is stopped stays in the router's LOCAL buffer (R340). -/
def State.localFree (s : State) (h : Hdr) : Bool := s.epRuns h

/-- An ESC packet of router r can leave by the port now: it is served before the other channels (R261). -/
def State.escFirst (s : State) (r p : Nat) : Bool :=
  s.fab.packets.any (fun e => e.inRouter r && e.h.vc == vcESC && s.isHead e && s.outPort r e.h == some p
    && (if p == 4 then s.localFree e.h else s.portFree r p e.h.buf))

/-- Send a packet out of port p of router r under the link's next sequence number (R256, R259). -/
def State.toPort (s : State) (r p : Nat) (k : Packet) : State :=
  if s.portFree r p k.h.buf then
    let l := s.link r p
    ((s.sendTo k (.link r p l.seq 0)).setLink r p { l with seq := l.seq + 1 }).forwarded r k.h.vc
  else s

/-- A packet that fails its CRC at its endpoint is discarded and counted (R245). -/
def State.corrupt (s : State) (r n : Nat) : State := (s.dropPacket n).addSat (spinePage r) NET_STATUS_CORRUPT 1

/-- A packet leaves router r by LOCAL (R245, R260). -/
def State.toLocal (s : State) (r : Nat) (k : Packet) (crcOk : Bool) : State :=
  if !s.localFree k.h then s
  else
    let s := s.forwarded r k.h.vc
    if crcOk then
      let s := if 0x20 ≤ k.h.dep && k.h.dep < 0x30 then s.traffic r k.h else s
      s.sendTo k .endpoint
    else s.corrupt r k.id

/-- A router forwards the packet at the head of a buffer (R260, R261, R264, R265); multicast copies fan out by MCAST. -/
def State.route (s : State) (r : Nat) (k : Packet) (crcOk : Bool) : State :=
  let s := s.routerBoundary r
  let d := k.h.drouter
  if k.h.fans || !s.isHead k then s
  else if d != r && s.flag (routerPage r) (RT_DEAD (s.bank r) d) then s.dropAt r k.id
  else match s.outPort r k.h with
  | none => s
  | some p =>
    if k.h.vc != vcESC && s.escFirst r p then s
    else if p == 4 then
      (if k.h.vc != vcESC && k.h.rb == 1 then
        (s.sendTo k (.engine (blockOf r) (blockOf d))).forwarded r k.h.vc
       else s.toLocal r k crcOk)
    else
      let down := k.h.vc == vcESC && k.h.rb == 2 && s.fab.down.contains (4 * r + p)
      s.toPort r p { k with h := { k.h with rb := if down then 3 else k.h.rb } }

/-- PACKET_FORWARD (R245, R256, R260): at a router the packet is forwarded; the packet first on a link reaches the next
router, or its CRC fails and it waits for a replay. -/
def execPacketForward (n : Nat) (crcOk : Bool) (s : State) : Out :=
  match s.packet n with
  | none => .next s
  | some k =>
    match k.loc with
    | .router r _ => if s.routerRuns r then .next (s.route r k crcOk) else .next s
    | .link r p q f =>
      match nbr r p with
      | none => .next s
      | some t =>
        if f != 0 || !s.linkUp r p || !s.routerRuns t
            || s.fab.packets.any (fun x => x.onLink r p && x.seqno < q) then .next s
        else if crcOk then .next (s.sendTo k (.router t (oppPort p)))
        else .next (s.movePacket n (fun k => { k with loc := .link r p q 1 }))
    | _ => .next s

/-- A multicast copy at the head of its buffer in router r (R245, R265): delivered by LOCAL when its bit is set, if it
passes its CRC there, and sent toward each side that still holds selected routers; what cannot leave yet stays. -/
def State.mcastFan (s : State) (k : Packet) (r : Nat) (crcOk : Bool) : State :=
  let s := s.routerBoundary r
  let h := k.h
  let me := linePos r (mcCol h)
  let own := mcMask h / 2 ^ me % 2 == 1
  let here := { mcSet h (2 ^ me) with drouter := r }
  let localGo := own && s.localFree here && !s.escFirst r 4
  let goes := fun (e : Nat × Nat) => s.portFree r e.2 h.buf && !s.escFirst r e.2
  let sides := mcSides r h
  let left := (if own && !localGo then 2 ^ me else 0) + ((sides.filter (fun e => !goes e)).map (·.1)).sum
  if !s.isHead k || left == mcMask h then s
  else
    let s := if left == 0 then s.dropPacket k.id else s.movePacket k.id (fun x => { x with h := mcSet x.h left })
    let s := if !localGo then s
      else if crcOk then (s.addPacket here k.data .endpoint).forwarded r vcBULK
      else (s.addSat (spinePage r) NET_STATUS_CORRUPT 1).forwarded r vcBULK
    (sides.filter goes).foldl (fun s e =>
      let l := s.link r e.2
      ((s.addPacket (mcSet h e.1) k.data (.link r e.2 l.seq 0)).setLink r e.2 { l with seq := l.seq + 1 }).forwarded r vcBULK) s

/-- MCAST: a copy at a router on its way, or delivered at its destination. -/
def execMcast (a : Arrival) (s : State) : Out :=
  match s.packet a.n with
  | none => .next s
  | some k =>
    if k.h.type != ptMCAST then .next s
    else match k.loc with
    | .endpoint => if s.epRuns k.h then .next (s.writeArrive k) else .next s
    | .router r _ => if k.h.fans && s.routerRuns r then .next (s.mcastFan k r a.crcOk) else .next s
    | _ => .next s

/-- ESC_MOVE (R261, R265): the packet at the head of a buffer, which has been blocked, moves to the escape channel; a
multicast copy becomes one packet for each selected router still ahead, if it passes its CRC, and is else discarded and
counted as at an endpoint (log entry 67). -/
def execEscMove (a : Arrival) (s : State) : Out :=
  match s.packet a.n with
  | none => .next s
  | some k =>
    match k.loc with
    | .router r inp =>
      if k.h.vc == vcESC || !s.routerRuns r || !s.isHead k then .next s
      else
        let s := s.addWrap (routerPage r) (RT_COUNT_W 4) 1
        if k.h.type != ptMCAST then .next (s.sendTo { k with h := { k.h with vc := vcESC, rb := 2 } } k.loc)
        else if !a.crcOk then .next (s.corrupt r a.n)
        else
          .next ((maskBits (mcMask k.h)).foldl (fun s i =>
            s.addPacket { mcSet k.h (2 ^ i) with drouter := lineRouter r (mcCol k.h) i, vc := vcESC, rb := 2 }
              k.data (.router r inp)) (s.dropPacket a.n))
    | _ => .next s

/-- Packets an engine holds for a pair (R270, R276). -/
def State.engineQ (s : State) (b t : Nat) : Nat :=
  (s.fab.packets.filter (fun k => match k.loc with | .engine x y => x == b && y == t | _ => false)).length

/-- OCC_ADVERTISE (R270). -/
def execOccAdvertise (b : Nat) (s : State) : Out :=
  onUnit (blockOk b && s.part.hasTransit) (fun s =>
    (List.range 32).foldl (fun s t =>
      let q := min 255 (s.engineQ b t)
      let f := { s.fab with occ := if q == 0 then s.fab.occ.erase (32 * b + t) else s.fab.occ.set (32 * b + t) q }
      { s with fab := f }) s) s

/-- The router of block b's engine in a row, or the nearest in service of its base die (R268). -/
def State.engineRouter (s : State) (b cy : Nat) : Nat :=
  let up := (List.range 4).filter (fun c => !s.hole (dieOfBase (3 * b + 1) c))
  let far := fun c => if c ≤ cy then cy - c else c - cy
  dieOfBase (3 * b + 1) (up.foldl (fun best c => if far c < far best || !up.contains best then c else best) cy)

/-- The plane after the last one used, of those in the stripe (R268). -/
def State.nextPlane (s : State) (b t : Nat) : Option Nat :=
  let w := s.fld (photPage b) (PH_PAIR_WORKING t)
  let last := s.fab.stripe.getD (32 * b + t) 9
  ((List.range 10).map (fun i => (last + 1 + i) % 10)).find? (fun k => w / 2 ^ k % 2 == 1)

/-- A packet reaches the far engine and its router, whose LOCAL input has room (R259, R268). -/
def State.waveArrive (s : State) (k : Packet) (t : Nat) : State :=
  let r := s.engineRouter t (dieY k.h.drouter % 4)
  if s.bufRoom r 4 k.h.buf then s.sendTo { k with h := { k.h with rb := 0 } } (.router r 4) else s

/-- TRANSIT_PACKET (R268, R269): a packet at an engine crosses on the next plane of its pair's stripe, is held there
when its CRC fails, or returns to the mesh when the pair is closed. -/
def execTransitPacket (n : Nat) (crcOk : Bool) (s : State) : Out :=
  match s.packet n with
  | none => .next s
  | some k =>
    match k.loc with
    | .engine b t =>
      if s.therm.hold ≥ 2 then .next s
      else if s.pairOpen b t && s.transitUp b t then
        match s.nextPlane b t with
        | none => .next s
        | some pl =>
          let s := { s with fab := { s.fab with stripe := s.fab.stripe.set (32 * b + t) pl } }
          if crcOk then .next (s.waveArrive k t) else .next (s.sendTo k (.wave b t pl))
      else
        let r := s.engineRouter b (dieY k.h.srouter % 4)
        .next (if s.bufRoom r 4 k.h.buf then s.sendTo { k with h := { k.h with rb := 0 } } (.router r 4) else s)
    | .wave b t pl =>
      if crcOk && s.fld (photPage b) (PH_PAIR_WORKING t) / 2 ^ pl % 2 == 1 && s.transitUp b t && s.therm.hold < 2 then .next (s.waveArrive k t)
      else .next s
    | _ => .next s

/-- LINK_REPLAY (R256): the packet that failed and those behind it are sent again; after 8 failed replays of one packet
in a row the link must retrain first. -/
def execLinkReplay (r p : Nat) (crcOk : Bool) (s : State) : Out :=
  onUnit (linkOk r p && (nbr r p).isSome) (fun s =>
    match s.fab.packets.find? (fun k => k.onLink r p && k.fails != 0) with
    | none => s
    | some k =>
      if !s.linkUp r p || 8 < k.fails then s
      else
        let behind := (s.fab.packets.filter (fun x => x.onLink r p && k.seqno ≤ x.seqno)).length
        let s := s.addSat (routerPage r) (LINK_STATUS_REPLAYS p) behind
        if crcOk then s.sendTo k (.router ((nbr r p).getD r) (oppPort p))
        else s.movePacket k.id (fun x => { x with loc := .link r p k.seqno (k.fails + 1) })) s

/-- Groups of a direction with two failures, in a half of the groups (R257). -/
def Link.lost (l : Link) (half : Nat) : Bool :=
  (List.range 16).any (fun i => 2 ≤ (l.failed.filter (fun n => n % 1024 / 32 == 16 * half + i && n < 1024
    || 1024 ≤ n && n - 1024 == 16 * half + i)).length)

/-- Width of a link: 2 full, 1 half, 0 down (R257, R275). -/
def State.linkWidth (s : State) (r p : Nat) : Nat :=
  match nbr r p with
  | none => 0
  | some q =>
    let a := s.link r p
    let b := s.link q (oppPort p)
    let lo := a.lost 0 || b.lost 0
    let hi := a.lost 1 || b.lost 1
    let cfg := fun (F : Nat → Fld) => s.flag (routerPage r) (F p) || s.flag (routerPage q) (F (oppPort p))
    if (lo && hi) || cfg LINK_CFG_DISABLE then 0
    else if lo || hi || cfg LINK_CFG_FORCE_HALF then 1 else 2

/-- LINK_STATUS and LINK_UP of one end (R275). -/
def State.linkEnd (s : State) (r p : Nat) : State :=
  match nbr r p with
  | none => s
  | some q =>
    let bp := routerPage r
    let up := (s.link r p).up
    let s := s.setFld bp (LINK_STATUS_LANES_FAILED p) ((s.link r p).failed.length + (s.link q (oppPort p)).failed.length)
    let s := s.setFld bp (LINK_STATUS_SPARES_USED p) (s.link r p).spared.length
    let s := s.setFld bp (LINK_STATUS_WIDTH p) (if up then s.linkWidth r p else 0)
    let m := s.fld bp RT_STATUS_LINK_UP
    s.setFld bp RT_STATUS_LINK_UP (m - m / 2 ^ p % 2 * 2 ^ p + (if up then 2 ^ p else 0))

/-- A link goes down at both ends (R256): each sender waits for the far end's report. -/
def State.linkFall (s : State) (r p : Nat) : State :=
  match nbr r p with
  | none => s
  | some q =>
    if (s.link r p).up then
      let s := s.setLink r p { s.link r p with up := false, reportDue := true }
      let s := s.setLink q (oppPort p) { s.link q (oppPort p) with up := false, reportDue := true }
      let s := (s.linkEnd r p).linkEnd q (oppPort p)
      s.logCorrected srcLinkDown 127 (locLink r p 0) 0#64 []
    else s

/-- A link comes up at both ends when its lanes permit. -/
def State.linkRise (s : State) (r p : Nat) : State :=
  match nbr r p with
  | none => s
  | some q =>
    if s.linkWidth r p == 0 then s
    else
      let s := s.setLink r p { s.link r p with up := true, reportDue := false }
      let s := s.setLink q (oppPort p) { s.link q (oppPort p) with up := true, reportDue := false }
      (s.linkEnd r p).linkEnd q (oppPort p)

/-- After a change of its lanes or its configuration a link changes width, or falls. -/
def State.linkRefresh (s : State) (r p : Nat) : State :=
  match nbr r p with
  | none => s
  | some q =>
    if (s.link r p).up && s.linkWidth r p == 0 then s.linkFall r p else (s.linkEnd r p).linkEnd q (oppPort p)

/-- LINK_RETRAIN (R256): a link on which one packet has failed 8 replays in a row trains anew and replays it; a link that
is down and can run returns. -/
def execLinkRetrain (r p : Nat) (s : State) : Out :=
  onUnit (linkOk r p && (nbr r p).isSome) (fun s =>
    let stuck := s.fab.packets.any (fun k => k.onLink r p && 8 < k.fails)
    if (s.link r p).up && !stuck then s
    else
      let s := s.addSat (routerPage r) (LINK_STATUS_RETRAINS p) 1
      let s := { s with fab := { s.fab with packets := s.fab.packets.map (fun k =>
          if k.onLink r p && 1 < k.fails then { k with loc := .link r p k.seqno 1 } else k) } }
      if (s.link r p).up || s.hole r then s else s.linkRise r p) s

/-- LINK_DOWN (R256). -/
def execLinkDown (r p : Nat) (s : State) : Out := onUnit (linkOk r p && (nbr r p).isSome) (fun s => s.linkFall r p) s

/-- Router r takes back the packets that a link's replay buffer holds unaccepted, to route them again. -/
def State.unlink (s : State) (r p : Nat) : State :=
  { s with fab := { s.fab with packets := s.fab.packets.map (fun k => if k.onLink r p then { k with loc := .router r 4 } else k) } }

/-- LINK_DOWN_REPORT (R256): what the far router had accepted has left the buffer; the rest is routed again. -/
def execLinkDownReport (r p : Nat) (s : State) : Out :=
  onUnit (linkOk r p && (nbr r p).isSome) (fun s =>
    if (s.link r p).reportDue then (s.setLink r p { s.link r p with reportDue := false }).unlink r p else s) s

/-- REPLAY_REPORT_TIMEOUT (R256): with no report the whole buffer is discarded and counted. -/
def execReplayReportTimeout (r p : Nat) (s : State) : Out :=
  onUnit (linkOk r p && (nbr r p).isSome) (fun s =>
    if (s.link r p).reportDue then
      let n := (s.fab.packets.filter (fun k => k.onLink r p)).length
      let s := s.setLink r p { s.link r p with reportDue := false }
      let s := { s with fab := { s.fab with packets := s.fab.packets.filter (fun k => !k.onLink r p) } }
      s.addWrap (routerPage r) (RT_COUNT_W 6) n
    else s) s

/-- The group of a lane; lanes 1024–1055 are the spares (R255). -/
def laneGroup (lane : Nat) : Nat := if lane < 1024 then lane / 32 else lane - 1024

/-- LANE_FAIL (R257): router r, receiving on port p, finds a lane failed; the group's spare is trained for its first
failure; the failure is entered in the Almanac and scored against both routers' dies. -/
def execLaneFail (r p lane : Nat) (s : State) : Out :=
  onUnit (linkOk r p && (nbr r p).isSome && lane < 1056) (fun s =>
    let l := s.link r p
    if l.failed.contains lane then s
    else
      let first := !l.failed.any (fun x => laneGroup x == laneGroup lane)
      let s := s.setLink r p { l with failed := setIns l.failed lane
                                      training := if first && lane < 1024 then setIns l.training lane else l.training }
      let s := s.setAlm (almKey almLane (8192 * r + 2048 * p + lane)) 1
      let s := s.linkRefresh r p
      s.logCorrected srcLane 127 (locLink r p (lane % 1024)) 0#64
        ([keyBase (baseOf r), keyBase (baseOf ((nbr r p).getD r))].eraseDups)) s

/-- LANE_SPARE_SWITCH (R257): both ends switch to the trained spare. -/
def execLaneSpareSwitch (r p lane : Nat) (s : State) : Out :=
  onUnit (linkOk r p && (nbr r p).isSome) (fun s =>
    let l := s.link r p
    if l.training.contains lane then
      (s.setLink r p { l with training := setDel l.training lane, spared := setIns l.spared lane }).linkRefresh r p
    else s) s

/-- UP, PLANES_OK and TUNING of an engine from its pairs (R276), and TRANSIT_UP (R269). -/
def State.engineView (s : State) (b : Nat) : State :=
  let bp := photPage b
  let up := (List.range 32).any (fun t => s.fld bp (PH_PAIR_NWORK t) != 0)
  let ok := popMask 10 (fun k => (List.range 32).any (fun t =>
    (s.fld bp (PH_PAIR_WORKING t) / 2 ^ k % 2 == 1) || (s.fld bp (PH_PAIR_SPARE t) / 2 ^ k % 2 == 1)))
  let s := ((s.setFld bp PH_STATUS_UP (b2n up)).setFld bp PH_STATUS_PLANES_OK ok).setFld bp PH_STATUS_TUNING
    (b2n ((s.fab.tuning.range (32 * b) (32 * b + 32)).any (fun e => !e.2.isEmpty)))
  { s with panel := { s.panel with transitUp := (List.range 32).any (fun b => s.flag (photPage b) PH_STATUS_UP) } }

/-- Change the plane masks of a pair. -/
def State.setPair (s : State) (b t working spare failed : Nat) : State :=
  let bp := photPage b
  let n := ((List.range 10).filter (fun k => working / 2 ^ k % 2 == 1)).length
  (((s.setFld bp (PH_PAIR_WORKING t) working).setFld bp (PH_PAIR_SPARE t) spare).setFld bp (PH_PAIR_FAILED t)
    failed).setFld bp (PH_PAIR_NWORK t) n

def clearBit (m k : Nat) : Nat := m - m / 2 ^ k % 2 * 2 ^ k
def setBit (m k : Nat) : Nat := clearBit m k + 2 ^ k

/-- A packet held on a wavelength. -/
def Packet.onWave (x : Packet) (b t plane : Nat) : Bool :=
  match x.loc with | .wave i j k => i == b && j == t && k == plane | _ => false

/-- Spare planes of a pair that are being tuned. -/
def State.tuningOf (s : State) (b t : Nat) : List Nat := s.fab.tuning.getD (32 * b + t) []
def State.setTuning (s : State) (b t : Nat) (l : List Nat) : State :=
  { s with fab := { s.fab with tuning :=
      if l.isEmpty then s.fab.tuning.erase (32 * b + t) else s.fab.tuning.set (32 * b + t) l } }

/-- The far engine owes a report of the last packet accepted on a wavelength whose replay buffer holds packets (R269). -/
def State.waveReport (s : State) (b t plane : Nat) : State :=
  if s.fab.packets.any (fun x => x.onWave b t plane) && !s.fab.reports.contains (b, t, plane) then
    { s with fab := { s.fab with reports := s.fab.reports ++ [(b, t, plane)] } }
  else s

/-- WAVELENGTH_FAIL (R269): the plane leaves the stripe or the spares; the lowest good spare that is not being tuned is
tuned in place of a plane of the stripe, or of a spare that failed while it was tuned. -/
def execWavelengthFail (b t plane : Nat) (s : State) : Out :=
  onUnit (waveOk b t plane && s.part.hasTransit && b != t) (fun s =>
    let bp := photPage b
    let w := s.fld bp (PH_PAIR_WORKING t)
    let sp := s.fld bp (PH_PAIR_SPARE t)
    let inW := w / 2 ^ plane % 2 == 1
    if !inW && sp / 2 ^ plane % 2 == 0 then s
    else
      let s0 := s
      let s := s.setPair b t (clearBit w plane) (clearBit sp plane) (setBit (s.fld bp (PH_PAIR_FAILED t)) plane)
      let was := s.tuningOf b t
      let left := was.filter (fun k => k != plane)
      let free := (List.range 10).find? (fun k => (clearBit sp plane) / 2 ^ k % 2 == 1 && !left.contains k)
      let s := (s.setTuning b t (if inW || was.contains plane then left ++ free.toList else left)).waveReport b t plane
      let s := s.setAlm (almKey almWave (512 * b + 16 * t + plane)) 1
      let s := s.engineView b
      (s.logCorrected srcWave 127 (locBlock b) 0#64 [keyBase (3 * b + 1)]).capSync s0) s

/-- WAVELENGTH_REPORT (R269): the source replays on other planes what the destination had not accepted. -/
def execWavelengthReport (b t plane : Nat) (s : State) : Out :=
  if s.fab.reports.contains (b, t, plane) then
    .next { s with fab := { s.fab with
      reports := s.fab.reports.filter (fun x => x != (b, t, plane))
      packets := s.fab.packets.map (fun x => if x.onWave b t plane then { x with loc := .engine b t } else x) } }
  else .next s

/-- WAVE_REPORT_TIMEOUT (R269): the buffer is discarded, counted at the engine's router. -/
def execWaveReportTimeout (b t plane : Nat) (s : State) : Out :=
  if s.fab.reports.contains (b, t, plane) then
    let l := s.fab.packets.filter (fun x => x.onWave b t plane)
    let s := { s with fab := { s.fab with reports := s.fab.reports.filter (fun x => x != (b, t, plane)) } }
    .next (l.foldl (fun s x => s.dropAt (s.engineRouter b (dieY x.h.srouter % 4)) x.id) s)
  else .next s

/-- WAVELENGTH_SPARE_ENABLE (R269): the tuned spare enters the stripe. -/
def execWavelengthSpareEnable (b t plane : Nat) (s : State) : Out :=
  onUnit (waveOk b t plane && s.part.hasTransit) (fun s =>
    if (s.tuningOf b t).contains plane then
      let bp := photPage b
      let s0 := s
      let s := s.setPair b t (setBit (s.fld bp (PH_PAIR_WORKING t)) plane) (clearBit (s.fld bp (PH_PAIR_SPARE t)) plane)
        (s.fld bp (PH_PAIR_FAILED t))
      ((s.setTuning b t ((s.tuningOf b t).filter (fun k => k != plane))).engineView b).capSync s0
    else s) s

/-- The engine of block b is in the dew state: every compute die of its block that is in service is (R269, R376; log entry
67). -/
def State.engineDew (s : State) (b : Nat) : Bool :=
  (blockDies b).all (fun d => s.flag (spinePage d) TH_STATUS_DEW || s.dieState d == dieRetired || s.dieState d == dieDark)

/-- WAVELENGTH_RETEST (R269): a failed wavelength that passes becomes a spare again. -/
def execWavelengthRetest (b t plane : Nat) (pass : Bool) (s : State) : Out :=
  onUnit (waveOk b t plane && s.part.hasTransit) (fun s =>
    let bp := photPage b
    let f := s.fld bp (PH_PAIR_FAILED t)
    if pass && s.engineDew b && f / 2 ^ plane % 2 == 1 then
      let s0 := s
      let s := s.setPair b t (s.fld bp (PH_PAIR_WORKING t)) (setBit (s.fld bp (PH_PAIR_SPARE t)) plane) (clearBit f plane)
      let s := s.setAlm (almKey almWave (512 * b + 16 * t + plane)) 0
      (s.engineView b).capSync s0
    else s) s

/-- Every pair of an engine closes (R269, R356); what its wavelengths hold unaccepted waits for the far engines' reports. -/
def State.closeEngine (s : State) (b : Nat) : State :=
  let bp := photPage b
  let held := (s.fab.packets.filterMap (fun x => match x.loc with
    | .wave e t k => if e == b then some (t, k) else none
    | _ => none)).eraseDups
  let s := held.foldl (fun s e => s.waveReport b e.1 e.2) s
  let s := (List.range 32).foldl (fun s t => s.setPair b t 0 (s.fld bp (PH_PAIR_SPARE t)) (s.fld bp (PH_PAIR_FAILED t))) s
  let s := { s with fab := { s.fab with tuning := s.fab.tuning.eraseRange (32 * b) (32 * b + 32) } }
  s.engineView b

/-- COMB_SOURCE_FAIL (R269): every pair from the engine's block closes. -/
def execCombSourceFail (b : Nat) (s : State) : Out :=
  onUnit (blockOk b && s.part.hasTransit) (fun s =>
    if s.fab.combFailed.contains b then s
    else
      let s0 := s
      let s := { s with fab := { s.fab with combFailed := setIns s.fab.combFailed b } }
      let s := (s.closeEngine b).setFld (photPage b) PH_STATUS_COMB_LOCK 0
      (s.logCorrected srcPhotonic 127 (locBlock b) 0#64 []).capSync s0) s

/-- PH_RETUNE (R276): the ring heater loops are locked again, one plane at a time; the stripe stays as it is. -/
def execPhRetune (b : Nat) (s : State) : Out := onUnit (blockOk b && s.part.hasTransit) (fun s => s) s

/-- In-service neighbours of router r: (port, neighbour) (R262, R264). -/
def State.inLinks (s : State) (r : Nat) : List (Nat × Nat) :=
  (List.range 4).filterMap (fun p =>
    match nbr r p with
    | some q => if s.linkUp r p && !s.hole r && !s.hole q then some (p, q) else none
    | none => none)

/-- The in-service router nearest (11, 7), with the lower number at equal distance (R262). -/
def State.routeRoot (s : State) : Nat :=
  let at0 := dieAt 11 7
  ((List.range 384).filter (fun r => !s.hole r)).foldl (fun (best : Nat) r =>
    if best == 384 || meshDist r at0 < meshDist best at0 then r else best) 384

/-- Relax distances until they are stable: each router takes 1 plus the least of the routers its edges lead to. -/
def relax (edges : Array (List Nat)) (base : Array Nat) (fuel : Nat) (dist : Array Nat) : Array Nat :=
  match fuel with
  | 0 => dist
  | k + 1 =>
    let next := (Array.range 384).map (fun r =>
      (edges.getD r []).foldl (fun m q => min m (dist.getD q 999 + 1)) (min (base.getD r 999) (dist.getD r 999)))
    if next == dist then dist else relax edges base k next

def distFrom (edges : Array (List Nat)) (base : Array Nat) : Array Nat := relax edges base 400 base

/-- The array that is 0 at d alone. -/
def onlyAt (d : Nat) : Array Nat := (Array.range 384).map (fun r => if r == d then 0 else 999)

/-- The level of every router that links in service join to the root (R262). -/
def State.levelOrder (s : State) : Tab Nat :=
  let edges := (Array.range 384).map (fun r => (s.inLinks r).map (·.2))
  let level := distFrom edges (onlyAt s.routeRoot)
  (List.range 384).filterMap (fun r => if level.getD r 999 < 999 then some (r, level.getD r 999) else none)

/-- Link directions that lead down by a level order (R262): toward the higher level, at equal level toward the higher
number. A router that had no level when the order was formed counts as below all that had one (log entry 67). -/
def State.orient (s : State) (levels : Tab Nat) : List Nat :=
  let lv := (Array.range 384).map (fun r => Tab.getD levels r 999)
  (List.range 384).flatMap (fun r => (s.inLinks r).filterMap (fun e =>
    let a := lv.getD r 999
    let b := lv.getD e.2 999
    if a < b || (a == b && r < e.2) then some (4 * r + e.1) else none))

/-- The orientation kept (R263): links that stay keep theirs, a link that returns takes that of the level order in
force. -/
def State.orientKept (s : State) : List Nat :=
  let fresh := s.orient s.fab.levels
  (List.range 384).flatMap (fun r => (s.inLinks r).filterMap (fun e =>
    let here := 4 * r + e.1
    let there := 4 * e.2 + oppPort e.1
    let down := if s.fab.down.contains here then true else if s.fab.down.contains there then false else fresh.contains here
    if down then some here else none))

/-- What a router's entry for destination d needs (R260, R262): ports with a minimal path, and the first ports of
the shortest legal route and of the shortest route of down links. -/
structure RouteRow where
  adapt : Nat
  escUp : Nat
  escDown : Nat
  reach : Bool

/-- Entries of every router for destination d under an orientation. -/
def State.routesTo (s : State) (downs : List Nat) (d : Nat) : Array RouteRow :=
  let links := (Array.range 384).map (fun r => s.inLinks r)
  let sel := fun (keep : Nat → Nat × Nat → Bool) =>
    (Array.range 384).map (fun r => ((links.getD r []).filter (keep r)).map (·.2))
  let isDown := fun (r : Nat) (e : Nat × Nat) => downs.contains (4 * r + e.1)
  let dd := distFrom (sel isDown) (onlyAt d)
  let dl := distFrom (sel (fun r e => !isDown r e)) dd
  let dm := distFrom (sel (fun r e => meshDist e.2 d < meshDist r d)) (onlyAt d)
  (Array.range 384).map (fun r =>
    let ls := links.getD r []
    let first := fun (best : Nat) (cost : Nat × Nat → Nat) =>
      match ls.find? (fun e => cost e + 1 == best) with
      | some e => e.1
      | none => 7
    let down := if dd.getD r 999 < 999 then
        first (dd.getD r 999) (fun e => if isDown r e then dd.getD e.2 999 else 9999) else 7
    let up := if dl.getD r 999 < 999 then
        first (dl.getD r 999) (fun e => if isDown r e then dd.getD e.2 999 else dl.getD e.2 999) else 7
    let ad := popMask 4 (fun p => ls.any (fun e => e.1 == p && meshDist e.2 d < meshDist r d && dm.getD e.2 999 < 999))
    ⟨ad, up, down, dl.getD r 999 < 999⟩)

/-- Every in-service router reaches every other by a legal route (R263). -/
def State.allReach (s : State) (tbl : Array (Array RouteRow)) : Bool :=
  (List.range 384).all (fun d => s.hole d || (List.range 384).all (fun r =>
    s.hole r || ((tbl.getD d #[]).getD r ⟨0, 7, 7, false⟩).reach))

/-- The route tables of every destination. -/
def State.routeTables (s : State) (downs : List Nat) : Array (Array RouteRow) :=
  (Array.range 384).map (fun d => if s.hole d then #[] else s.routesTo downs d)

/-- The word of four entries of router r at index i (R275). -/
def State.routeWord (s : State) (tbl : Array (Array RouteRow)) (r i : Nat) : Nat :=
  iter 4 (fun j a =>
    let d := 4 * i + j
    let e := (tbl.getD d #[]).getD r ⟨0, 7, 7, false⟩
    let dead := s.hole d
    let tr := s.part.hasTransit && blockOf d != blockOf r
    a + (e.adapt * 2 ^ 12 + (if tr then 2 ^ 11 else 0) + e.escUp * 2 ^ 8 + e.escDown * 2 ^ 5 + (if dead then 2 ^ 4 else 0)) * 2 ^ (16 * j)) 0

/-- Stage a field of a router's page (R10, R325). -/
def State.stageFld (s : State) (page : Nat) (F : Fld) (v : Nat) : State :=
  let k := page + F.off
  let m := BitVec.ofNat 64 (fieldMask F.hi F.lo)
  let o := s.shadow.getD k (0#64, 0#64)
  { s with shadow := s.shadow.set k (o.1 ||| m, (o.2 &&& ~~~m) ||| BitVec.ofNat 64 (v * 2 ^ F.lo)) }

/-- Write the bank not in effect in every router and select it; each switches at its next packet boundary (R263). -/
def State.writeRoutes (s : State) (tbl : Array (Array RouteRow)) (downs : List Nat) : State :=
  let s := (List.range 384).foldl (fun s r =>
    let bp := routerPage r
    let k := 1 - s.bank r
    let lo := bp + 0x1000 + 0x400 * k
    let new := (List.range 96).map (fun i => (lo + 8 * i, BitVec.ofNat 64 (s.routeWord tbl r i)))
    let s := { s with regs := s.regs.replaceRange lo (lo + 0x300) new }
    s.stageFld bp RT_CFG_TBL_SEL k) s
  { s with fab := { s.fab with down := downs } }

/-- INJ_STOP of every router in service. -/
def State.injStop (s : State) (v : Nat) : State :=
  (List.range 384).foldl (fun s r => if s.hole r then s else s.setFld (routerPage r) RT_CFG_INJ_STOP v) s

/-- New tables (R263): on the kept orientation where it still joins every router, else by re-orienting, which stops
injection and drains the escape channel first. -/
def State.routeUpdate (s : State) : State :=
  let downs := s.orientKept
  let tbl := s.routeTables downs
  if s.allReach tbl then s.writeRoutes tbl downs
  else
    let s := s.injStop 1
    { s with fab := { s.fab with reorient := true } }

/-- ROUTE_UPDATE. -/
def execRouteUpdate (s : State) : Out := .next s.routeUpdate

/-- Tables on a fresh orientation (R262). -/
def State.routeFresh (s : State) : State :=
  let lv := s.levelOrder
  let downs := s.orient lv
  let s := { s with fab := { s.fab with levels := lv } }
  s.writeRoutes (s.routeTables downs) downs

/-- The router where a packet on the escape channel is counted. -/
def Packet.at? (k : Packet) : Option Nat :=
  match k.loc with
  | .router r _ => some r
  | .link r _ _ _ => some r
  | _ => none

/-- ESC_DRAIN_END (R263): packets left on the escape channel are discarded and counted; the tables are computed on
a new orientation and injection starts again. -/
def execEscDrainEnd (s : State) : Out :=
  if s.fab.reorient then
    let l := s.fab.packets.filter (fun k => k.h.vc == vcESC && k.at?.isSome)
    let s := l.foldl (fun s k => s.dropAt (k.at?.getD 0) k.id) s
    let s := s.routeFresh.injStop 0
    .next { s with fab := { s.fab with reorient := false } }
  else .next s

end Sys2Proof.Machine
end

