-- ==== Sys2Proof/Machine/Spad.lean ====
section
/-! DEFINITION. The scratchpad's own machinery (R192–R210): owners, scrub write-backs, the Survey engine, map
tables, migration and zeroisation. -/

namespace Sys2Proof.Machine

/-- OWNER_WRITE (R193, R194): a write of SP_BANK. -/
def execOwnerWrite (g bank : Nat) (v : W64) (s : State) : Out :=
  onUnit (siteOk g && bank < 24) (fun s => (s.coreWrite g (0x700 + 8 * bank) v true).1) s

/-- SCRUB_WRITEBACK (R192): the oldest pending granule is written back corrected. -/
def execScrubWriteback (g : Nat) (s : State) : Out :=
  onSite g (fun s =>
    match (s.core g).sp.scrub with
    | [] => s
    | a :: r => { s.updSp g (fun x => { x with scrub := r }) with weak := setDel s.weak (spBase g + a) }) s

/-- The logical row that a physical row holds: none for a mapped-out main row, a FREE spare or a BAD spare. -/
def Sp.holds (x : Sp) (bank row : Nat) : Option Nat :=
  if row < 1024 then
    if (x.maps.range (64 * bank) (64 * bank + 64)).any (fun e => e.2.state == 1 && e.2.lrow == row) then none else some row
  else
    let e := x.entry bank (row - 1024)
    if e.state == 1 then some e.lrow else none

/-- What the Survey engine's buffer holds: the data of the row it has in hand, or of the last row it had (R203). -/
def State.surveyBuf (s : State) (g : Nat) : BitVec 2048 × List Nat :=
  let x := (s.core g).sp
  match x.hold.bind (fun h => (x.holds h.bank h.row).map (fun l => rowByte h.bank l)) with
  | some a => (BitVec.ofNat 2048 (s.spVal g a 256), (List.range 32).filter (fun i => s.poison.contains (spBase g + a + 8 * i)))
  | none => (x.buf, x.bufPoison)

/-- Go on to the next physical row; after bank 23 a pass is complete and the trackers are cleared (R192, R202). -/
def State.surveyNext (s : State) (g : Nat) : State :=
  let bp := corePage g
  let bank := s.fld bp SURVEY_STATUS_BANK
  let row := s.fld bp SURVEY_STATUS_ROW
  let b := s.surveyBuf g
  let s := s.updSp g (fun x => { x with hold := none, buf := b.1, bufPoison := b.2 })
  if row < 1087 then s.setFld bp SURVEY_STATUS_ROW (row + 1)
  else
    let s := s.setFld bp SURVEY_STATUS_ROW 0
    if bank < 23 then s.setFld bp SURVEY_STATUS_BANK (bank + 1)
    else
      let s := (s.setFld bp SURVEY_STATUS_BANK 0).addWrap bp SURVEY_STATUS_PASSES 1
      s.updSp g (fun x => { x with track := [] })

/-- A row is read on port B to be saved or copied: uncorrectable granules are told, correctable ones are stored sound again
(R203, R204, R207). -/
def State.cleanRow (s : State) (g a kind : Nat) : State :=
  let s := s.readAll g a 256 kind 1
  { s with weak := setDelRange s.weak (spBase g + a) (spBase g + a + 256) }

/-- SURVEY_ROW_START (R202, R203, R340): the next row is taken, with the clock of its core row running, or skipped. -/
def execSurveyRowStart (g : Nat) (s : State) : Out :=
  onSite g (fun s =>
    let bp := corePage g
    let x := (s.core g).sp
    if !s.flag bp SURVEY_CFG_ENABLE || s.flag bp SURVEY_CFG_PAUSE || s.flag bp SP_STATUS_ZERO_BUSY || x.hold.isSome then s
    else
      let bank := s.fld bp SURVEY_STATUS_BANK
      let row := s.fld bp SURVEY_STATUS_ROW
      let out := if row < 1024 then (x.holds bank row).isNone else (x.entry bank (row - 1024)).state == 2
      let mig := match x.mig with
        | some m => m.bank == bank && (row == 1024 + m.entry || row == s.physRow g bank m.lrow)
        | none => false
      if out then s.surveyNext g
      else if mig then (s.addSat bp SURVEY_STATUS_SKIPPED 1).surveyNext g
      else
        let s := match x.holds bank row with
          | some l => s.cleanRow g (rowByte bank l) 1
          | none => s
        (s.siteWake g).updSp g (fun x => { x with hold := some ⟨bank, row, false⟩ })) s

/-- Enter a map change in the table and in the Almanac (R207). -/
def State.setMap (s : State) (g bank e : Nat) (m : MapEntry) : State :=
  (s.setMaps g ((s.core g).sp.maps.set (64 * bank + e) m)).setAlm
    (almKey almMap (2048 * g + 64 * bank + e)) (1024 * m.state + m.lrow)

/-- SURVEY_ROW_END (R203, R205): the row is restored, or it failed and is held; a FREE spare that fails is BAD. Which
granule of the row failed is an open value (log entry 3). -/
def execSurveyRowEnd (g : Nat) (marchOk : Bool) (s : State) : Out :=
  onSite g (fun s =>
    match (s.core g).sp.hold with
    | none => s
    | some h =>
      if h.failed then s
      else if marchOk then s.surveyNext g
      else
        let bp := corePage g
        let s := s.addSat bp SURVEY_STATUS_FAILS 1
        let w := 2 * 2 ^ 62 + h.bank * 2 ^ 57 + h.row * 2 ^ 46 + (Config.freeW64 s.free).toNat % 32 * 2 ^ 41 + 2 ^ 40
        let s := { s.setReg (bp + 0x7E0) (BitVec.ofNat 64 w) with free := s.free + 1 }
        if 1024 ≤ h.row && ((s.core g).sp.entry h.bank (h.row - 1024)).state == 0 then
          (s.setMap g h.bank (h.row - 1024) ⟨2, 0⟩).surveyNext g
        else s.updSp g (fun x => { x with hold := some { h with failed := true } })) s

/-- SURVEY_ROW_TIMEOUT (R204): the row is restored with no verdict. -/
def execSurveyRowTimeout (g : Nat) (s : State) : Out :=
  onSite g (fun s =>
    match (s.core g).sp.hold with
    | some h => if h.failed then s else (s.addSat (corePage g) SURVEY_STATUS_SKIPPED 1).surveyNext g
    | none => s) s

/-- SURVEY_CFG.RELEASE (R205, R397): a failed row is restored into itself; with no FREE spare the site has failed. -/
def State.surveyRelease (s : State) (g : Nat) : State :=
  match (s.core g).sp.hold with
  | some h =>
    if h.failed then
      let lost := (s.freeSpare g h.bank).isNone
      let s := s.surveyNext g
      if lost then s.siteLost g else s
    else s
  | none => s

def execSurveyRelease (g : Nat) (s : State) : Out := onPage g (fun s => s.surveyRelease g) s

/-- The fields of SP_MIGRATE, with BUSY and RESULT. -/
def State.setMigrate (s : State) (g bank e lrow source result : Nat) (busy : Bool) : State :=
  s.setReg (corePage g + 0x7F0) (BitVec.ofNat 64 (bank % 32 * 2 ^ 59 + e % 64 * 2 ^ 53 + lrow % 1024 * 2 ^ 43
    + source % 2 * 2 ^ 4 + result * 2 ^ 2 + (if busy then 2 else 0)))

/-- A write of SP_MIGRATE with GO (R207). -/
def State.migrateGo (s : State) (g bank e lrow : Nat) (source : Bool) : State :=
  let x := (s.core g).sp
  let held := match x.hold with
    | some h => h.bank == bank && h.row == s.physRow g bank lrow
    | none => false
  let bad := 24 ≤ bank || 64 ≤ e || 1024 ≤ lrow || (x.entry bank e).state != 0 || x.mig.isSome || (held && !source)
  if bad then s.setMigrate g bank e lrow (b2n source) 3 x.mig.isSome
  else (s.setMigrate g bank e lrow (b2n source) 0 true).updSp g (fun x => { x with mig := some ⟨bank, e, lrow, source⟩ })

def execMigrateGo (g bank entry lrow : Nat) (source : Bool) (s : State) : Out :=
  onPage g (fun s => s.migrateGo g bank entry lrow source) s

/-- The 32 granules of a physical row that no logical row occupies become open values. -/
def State.openShelf (s : State) (g bank p : Nat) : State :=
  iter 32 (fun i s => { s.store (shelf g bank p + 8 * i) 8 (Config.freeW64 s.free).toNat 8 with free := s.free + 1 }) s

/-- The Survey buffer is written over a row (R205, R207). -/
def State.bufOver (s : State) (g a : Nat) : State :=
  let b := s.surveyBuf g
  b.2.foldl (fun s i => s.poisonRange (spBase g + a + 8 * i) 8 8) (s.spStore g a 256 b.1.toNat)

/-- MIGRATION_DONE (R207): the row's bytes, or with SOURCE the Survey buffer's, are in spare row e, which is MAPPED; a
previous spare becomes BAD, and a Survey hold of the row ends. The previous physical row keeps its bytes, or holds open
values where the March has passed over it (log entry 3). -/
def execMigrationDone (g : Nat) (s : State) : Out :=
  onSite g (fun s =>
    match (s.core g).sp.mig with
    | none => s
    | some m =>
      let a := rowByte m.bank m.lrow
      let old := s.physRow g m.bank m.lrow
      let held := match (s.core g).sp.hold with
        | some h => h.bank == m.bank && h.row == old
        | none => false
      let b := s.bufOver g a
      let s := if m.source then b else s.cleanRow g a 3
      let po := s.spPoison g a 256
      let was := spBase g + a
      let s := s.copyCells was (shelf g m.bank (1024 + m.entry)) 256
      let s := if 1024 ≤ old then s.setAlm (almKey almMap (2048 * g + 64 * m.bank + (old - 1024))) 2048 else s
      let t := (s.core g).sp.maps
      let t := if 1024 ≤ old then t.set (64 * m.bank + (old - 1024)) ⟨2, 0⟩ else t
      let s := (s.setMaps g (t.set (64 * m.bank + m.entry) ⟨1, m.lrow⟩)).setAlm
        (almKey almMap (2048 * g + 64 * m.bank + m.entry)) (1024 + m.lrow)
      let s := if held then s.openShelf g m.bank old else s
      let s := if held then s.surveyNext g else s
      let s := s.updSp g (fun x => { x with mig := none })
      let s := (s.setFld (corePage g) SP_MIGRATE_RESULT (if po.isSome then 2 else 1)).setFld (corePage g) SP_MIGRATE_BUSY 0
      if m.source then
        s.logCorrected srcSurvey (s.core g).part (locSite g) (BitVec.ofNat 64 a) [dieOfSite g]
      else s) s

/-- SP_MAP with CMD 1 (R211). -/
def State.mapSelect (s : State) (g bank e : Nat) : State :=
  (s.setFld (corePage g) SP_MAP_BANK bank).setFld (corePage g) SP_MAP_ENTRY e

def execSpMapSelect (g bank entry : Nat) (s : State) : Out := onPage g (fun s => s.mapSelect g bank entry) s

/-- SP_MAP with CMD 2 (R206, R207, R211): STATE and LROW are Locked by the core's idleness, and a write of the values the
entry has changes nothing (R12). A logical row that comes to lie in another physical row meets that row's bytes. -/
def State.mapWrite (s : State) (g bank e state lrow : Nat) : State :=
  let s := s.mapSelect g bank e
  let m : MapEntry := ⟨if state % 4 == 3 then 2 else state % 4, lrow % 1024⟩
  let k := 64 * bank + e % 64
  if 24 ≤ bank || (s.core g).sp.entry bank (e % 64) == m then s
  else if !s.coreIdle g then s.lockedDrop g 0x7E8
  else
    let t := (s.core g).sp.maps
    s.setMaps g (if m == ⟨0, 0⟩ then t.erase k else t.set k m)

def execSpMapWrite (g bank entry state lrow : Nat) (s : State) : Out :=
  onPage g (fun s => s.mapWrite g bank entry state lrow) s

/-- SP_CTRL.CE_CLEAR (R192). -/
def State.ceClear (s : State) (g : Nat) : State := s.updSp g (fun x => { x with track := [] })
def execCeClear (g : Nat) (s : State) : Out := onPage g (fun s => s.ceClear g) s

/-- All 1,088 physical rows of every bank are zero, and no poison is left (R209). -/
def State.zeroSp (s : State) (g : Nat) : State :=
  ((s.zeroRange (spBase g) (spBase g + spSize)).zeroRange (shelf g 0 0) (shelf g 24 0)).updSp g (fun x => { x with scrub := [] })

/-- SP_CTRL.ZEROISE (R209): accepted on an idle core with no migration, else refused. -/
def State.zeroise (s : State) (g : Nat) : State :=
  if s.coreIdle g && (s.core g).sp.mig.isNone then (s.zeroSp g).setFld (corePage g) SP_STATUS_ZERO_BUSY 1
  else s.lockedDrop g 0x7F8

def execZeroise (g : Nat) (s : State) : Out := onPage g (fun s => s.zeroise g) s

/-- ZEROISE_DONE (R209). -/
def execZeroiseDone (g : Nat) (s : State) : Out :=
  onSite g (fun s => s.setFld (corePage g) SP_STATUS_ZERO_BUSY 0) s

end Sys2Proof.Machine
end

