-- ==== Sys2Proof/Machine/Parts.lean ====
section
/-! DEFINITION. Partitions (R315–R334): placement, window sets (R216–R218, R320), quotas, energy admission (R328–R330),
the start and the end of commands (R299–R306), and what a host's going and coming does to them (R308–R311). -/

namespace Sys2Proof.Machine

/-- Handles of partition q that count against its quota (R293). -/
def State.liveHandles (s : State) (q : Nat) : List Handle :=
  s.handles.filter (fun h => h.part == q && h.h.toNat / 2 ^ 20 < 4032)

/-- A RUN of partition q that has started and has not completed. -/
def State.runLive (s : State) (q : Nat) : Bool :=
  s.handles.any (fun h => h.part == q && h.opcode == 0x30 && h.state == .running)

def Handle.lcFirst (h : Handle) : Nat := bits h.pkt.p0 12 0
def Handle.lcCount (h : Handle) : Nat := bits h.pkt.p0 28 16

/-- A live RUN of partition q whose status is not decided holds logical core l (R300). -/
def State.lcoreBusy (s : State) (q l : Nat) : Bool :=
  s.handles.any (fun h => h.part == q && h.opcode == 0x30 && h.state != .complete
    && h.lcFirst ≤ l && l < h.lcFirst + h.lcCount)

/-- Units allocated, those still being zeroised included, and HBM_GIB less what every other partition has reserved
(R315, R323). -/
def State.alloc (s : State) (q : Nat) : Nat := (s.hbm.owner.filter (fun e => e.2 == q)).length
def State.hbmGib (s : State) : Nat := if s.hbm.built then s.hbmN * 3 / 4 else 0
/-- HBM units that a PART_RESIZE of partition q reserves from its acceptance on (R315, R322). -/
def State.resizeUnits (s : State) (q : Nat) : Nat :=
  ((s.handles.filter (fun h => h.opcode == 0x11 && h.target == q && h.state != .complete)).map
    (fun h => bits h.pkt.p2 11 0)).foldl max 0
def State.freeUnits (s : State) (q : Nat) : Nat :=
  s.hbmGib - (partIds.map (fun p =>
    if p == q || !(s.prt p).live then 0 else max (max (s.prt p).hbmQuota (s.alloc p)) (s.resizeUnits p))).sum

/-! Placement, R319. -/

/-- Partitions with cores on die d. -/
def State.dieParts (s : State) (d : Nat) : List Nat :=
  partIds.filter (fun q => (s.prt q).live && (s.prt q).cores.any (fun e => e.2.1 == d))

/-- Slot j of die d carries a logical core. -/
def State.slotUsed (s : State) (d j : Nat) : Bool :=
  partIds.any (fun q => (s.prt q).live && (s.prt q).cores.any (fun e => e.2 == (d, j)))

/-- Slots of die d whose cores are counted and free; only a die in COUNTED state has any. -/
def State.freeSlots (s : State) (d : Nat) : List Nat :=
  if s.dieState d != dieCounted || !s.blockOn (blockOf d) then [] else
    (List.range 14).filter (fun j =>
      (match s.slotSite d j with
      | some g => s.siteState g == siteCounted
      | none => false) && !s.slotUsed d j)

/-- Dies of block b with no partition's cores that have counted cores. -/
def State.wholeDies (s : State) (b : Nat) : List Nat :=
  (blockDies b).filter (fun d => (s.dieParts d).isEmpty && !(s.freeSlots d).isEmpty)

/-- The block with the most of them, lower numbers first. -/
def bestBlock (l : List (Nat × List Nat)) : Option (Nat × List Nat) :=
  l.foldl (fun a e => match a with
    | none => if e.2.isEmpty then none else some e
    | some x => if x.2.length < e.2.length then some e else some x) none

/-- Take the dies of one block after another; the result is the cores placed and whether the count is met. -/
def placeDies (free : Nat → List Nat) (n : Nat) (whole : Bool) (ds : List Nat) (got : List (Nat × Nat)) :
    List (Nat × Nat) × Bool :=
  match ds with
  | [] => (got, n ≤ got.length)
  | d :: r =>
    if n ≤ got.length then (got, true)
    else if !whole && n < got.length + (free d).length then (got, true)
    else placeDies free n whole r (got ++ (free d).map (fun j => (d, j)))

def placeBlocks (free : Nat → List Nat) (n : Nat) (whole : Bool) (fuel : Nat) (bs : List (Nat × List Nat))
    (got : List (Nat × Nat)) : List (Nat × Nat) :=
  match fuel with
  | 0 => got
  | k + 1 =>
    match bestBlock bs with
    | none => got
    | some e =>
      let r := placeDies free n whole e.2 got
      if r.2 then r.1 else placeBlocks free n whole k (bs.filter (fun x => x.1 != e.1)) r.1

/-- Place n cores for partition q (R319), in ascending die number and slot; none when the panel has too few. -/
def State.place (s : State) (n : Nat) (whole : Bool) (q : Nat) : Option (List (Nat × Nat)) :=
  let got := placeBlocks s.freeSlots n whole 33 ((List.range 32).map (fun b => (b, s.wholeDies b))) []
  let single := if whole || n ≤ got.length then [] else
    ((List.range 6144).filterMap (fun g =>
      let d := dieOfSite g
      if (s.dieParts d).length < 4 || (s.dieParts d).contains q then
        ((s.freeSlots d).find? (fun j => s.slotSite d j == some g && !got.contains (d, j))).map (fun j => (d, j))
      else none)).take (n - got.length)
  let all := got ++ single
  if all.length < n then none
  else some (all.mergeSort (fun a b => a.1 < b.1 || (a.1 == b.1 && a.2 ≤ b.2)))

/-! Window sets, R216, R218, R320. -/

/-- The header of window set w of die d as it stands once Staged writes land. -/
def State.hdrNext (s : State) (d w : Nat) : W64 :=
  let k := spinePage d + 0x10000 + 0x8000 * w
  let e := s.shadow.getD k (0#64, 0#64)
  (s.reg k 0x7FFF80007F &&& ~~~e.1) ||| (e.2 &&& e.1)

/-- The window set of die d that partition q uses, in effect or Staged. -/
def State.setOf (s : State) (q d : Nat) : Option Nat :=
  (List.range 4).find? (fun w =>
    (s.flag (spinePage d) (WIN_HDR_VALID w) && s.fld (spinePage d) (WIN_HDR_PART w) == q)
    || (bit (s.hdrNext d w) 7 && bits (s.hdrNext d w) 6 0 == q))

/-- A window set of die d that no partition uses. -/
def State.freeSet (s : State) (d : Nat) : Option Nat :=
  (List.range 4).find? (fun w => !s.flag (spinePage d) (WIN_HDR_VALID w) && !bit (s.hdrNext d w) 7)

/-- Table entries of 16 bits packed four to a word. -/
def packQuads (base : Nat) (t : Tab Nat) : Tab W64 :=
  t.foldl (fun a e =>
    let k := base + 8 * (e.1 / 4)
    a.set k (a.getD k 0#64 ||| BitVec.ofNat 64 (e.2 * 2 ^ (16 * (e.1 % 4))))) []

/-- CACHE_WAYS of partition q on die d (R320). -/
def State.ways (s : State) (q d : Nat) : Nat :=
  let l := s.dieParts d
  let k := 16 / max 1 l.length
  (2 ^ k - 1) * 2 ^ (k * (l.idxOf q))

/-- The words of partition q's window set on die d (R216), by offset in the set. -/
def State.winWords (s : State) (q d : Nat) : Tab W64 :=
  let x := s.prt q
  let top := x.units.foldl (fun a e => max a (e.1 + 1)) 0
  let hdr := top * 2 ^ 52 + x.ncores * 2 ^ 39 + s.ways q d * 2 ^ 23 + x.hport * 2 ^ 20 + x.hfunc * 2 ^ 14 + 2 ^ 7 + q
  (0, BitVec.ofNat 64 hdr)
    :: (packQuads 0x400 (x.units.map (fun e => (e.1, 2 ^ 15 + e.2)))
      ++ packQuads 0x2000 ((x.cores.filter (fun e => e.1 < x.ncores)).map (fun e => (e.1, 2 ^ 15 + e.2.1 * 16 + e.2.2))))

/-- Write partition q's window set on die d: at once, or Staged (R218). -/
def State.writeSet (s : State) (q d : Nat) (now : Bool) : State :=
  match (s.setOf q d).or (s.freeSet d) with
  | none => s
  | some w =>
    let bp := spinePage d + 0x10000 + 0x8000 * w
    let new := (s.winWords q d).map (fun e => (bp + e.1, e.2))
    if now then
      { s with regs := s.regs.replaceRange bp (bp + 0x8000) new,
               shadow := s.shadow.eraseRange bp (bp + 0x8000) }
    else
      let ones : W64 := 0xFFFFFFFFFFFFFFFF#64
      let old : Tab (W64 × W64) := (s.regs.range bp (bp + 0x8000)).map (fun e => (e.1, (ones, 0#64)))
      let nw := new.foldl (fun (t : Tab (W64 × W64)) e => t.set e.1 (ones, e.2)) old
      { s with shadow := s.shadow.replaceRange bp (bp + 0x8000) nw }

/-- Dies on which partition q has cores. -/
def State.diesOf (s : State) (q : Nat) : List Nat :=
  (List.range 384).filter (fun d => (s.prt q).cores.any (fun e => e.2.1 == d))

/-- Write the window sets of partition q, and the CACHE_WAYS of its neighbours on its dies: at once while no RUN of
the partition concerned is live, else Staged (R218, R320, R322, R323). A partition whose sets are not yet valid is
left to its creation. -/
def State.writeSets (s : State) (q : Nat) : State :=
  (s.diesOf q).foldl (fun s d => (s.dieParts d).foldl (fun s p =>
    if p == q || (s.setOf p d).isSome then s.writeSet p d (!s.runLive p) else s) s) s

/-- The same through the FROZEN path of R218, at once. -/
def State.writeSetsNow (s : State) (q : Nat) : State :=
  (s.diesOf q).foldl (fun s d => s.writeSet q d true) s

/-- The window sets of partition q wait for an epoch boundary. -/
def State.setsStaged (s : State) (q : Nat) : Bool :=
  (List.range 384).any (fun d => match s.setOf q d with
    | some w => !(s.shadow.range (spinePage d + 0x10000 + 0x8000 * w) (spinePage d + 0x18000 + 0x8000 * w)).isEmpty
    | none => false)

/-- EPOCH_TAG of partition q (R216, R225). -/
def State.epochTag (s : State) (q : Nat) : Bool :=
  (s.diesOf q).any (fun d => match s.setOf q d with
    | some w => s.flag (spinePage d) (WIN_HDR_EPOCH_TAG w)
    | none => false)

/-- An epoch boundary of partition q (R10, R218): its Staged window-set fields take effect, and its cache lines go
when there were any (R228). -/
def State.epochBoundary (s : State) (q : Nat) : State :=
  if !s.setsStaged q then s else
    ((List.range 384).foldl (fun s d => match s.setOf q d with
      | some w => s.applyStaged (spinePage d + 0x10000 + 0x8000 * w) (spinePage d + 0x18000 + 0x8000 * w)
      | none => s) s).cacheDropPart q

/-- A window set that no partition uses any more. -/
def State.dropSet (s : State) (q d : Nat) : State :=
  match s.setOf q d with
  | none => s
  | some w =>
    let bp := spinePage d + 0x10000 + 0x8000 * w
    { s with regs := s.regs.eraseRange bp (bp + 0x8000), shadow := s.shadow.eraseRange bp (bp + 0x8000) }

/-- Site of logical core l of partition q. -/
def State.lsite (s : State) (q l : Nat) : Option Nat :=
  ((s.prt q).cores.find l).bind (fun e => s.slotSite e.1 e.2)

/-- The core at logical number l of partition q takes its place: its number, its partition, with the vector state of a core
newly assigned zeroed (R135), and its window set (R96, R216, R325). -/
def State.seatCore (s : State) (q l : Nat) : State :=
  match (s.prt q).cores.find l, s.lsite q l with
  | some e, some g =>
    let s := s.updCore g (fun c => { c with
      part := q, lcore := l
      vec := if c.part == q then c.vec else { c.vec with t := [], m := [], carry := [], chain := [] } })
    let s := match s.setOf q e.1 with
      | some w => s.setReg (spinePage e.1 + 0xF000)
          (setBits (s.reg (spinePage e.1 + 0xF000) 0) (2 * (g % 16) + 1) (2 * (g % 16)) w)
      | none => s
    s
  | _, _ => s

/-- INJ_SHARE of partition q in the routers of its dies (R325). -/
def State.writeShares (s : State) (q : Nat) : State :=
  (s.diesOf q).foldl (fun s d => s.stageFld (routerPage d) (INJ_SHARE q) (s.prt q).weight) s

/-- Seat every core, write every set and share. -/
def State.seatAll (s : State) (q : Nat) : State :=
  let s := s.writeSets q
  let s := (s.prt q).cores.foldl (fun s e => s.seatCore q e.1) s
  s.writeShares q

/-- A core leaves its partition: zeroised, its vector state cleared, unassigned (R209, R322, R450). -/
def State.freeCore (s : State) (g : Nat) : State := (s.zeroSp g).coreReset g

/-! Quotas, R324. -/

/-- Set over-quota bits under a mask, with a QUOTA notice at a change. -/
def State.setOver (s : State) (q mask v : Nat) : State :=
  let x := s.prt q
  let n := (x.overBits - Nat.land x.overBits mask) + Nat.land v mask
  if n == x.overBits then s else (s.setPrt q { x with overBits := n }).noticePart q noteQuota n 0 0

/-- The bits HBM, HANDLES and CORES follow use: a bit that is set is cleared once use is no longer over. -/
def State.overClear (s : State) (q : Nat) : State :=
  let x := s.prt q
  let cores := match x.resize with
    | some (n, _) => (List.range (x.ncores - n)).any (fun i => s.lcoreBusy q (n + i))
    | none => false
  let v := (if x.hbmQuota < s.alloc q then x.overBits % 2 else 0)
    + (if x.handleQuota < (s.liveHandles q).length then x.overBits / 2 % 2 * 2 else 0)
    + (if cores then 8 else 0)
  s.setOver q 0xB v

/-- A new HBM quota; a cut below the allocation sets the bit and asks for the difference (R324). -/
def State.setHbmQuota (s : State) (q n : Nat) : State :=
  let x := s.prt q
  let s := s.setPrt q { x with hbmQuota := n }
  if n < s.alloc q then
    let s := s.setOver q 1 1
    if n == x.hbmQuota then s else s.noticePart q noteRelease (s.alloc q - n) 0 0
  else s.overClear q

/-! Energy admission, R328–R330. -/

def governed (op : Nat) : Bool := [0x30, 0x22, 0x23, 0x24, 0x25, 0x26].contains op

/-- R of partition q (R328). -/
def State.reserved (s : State) (q : Nat) : Nat :=
  ((s.handles.filter (fun h => h.part == q && governed h.opcode
    && h.state == .running)).map (fun h => h.est - h.charged)).sum

/-- Bytes of a CHECKPOINT image: its header and, for each core of the RUN, the register section and the live regions
its mirror holds (R409). -/
def State.imageBytes (s : State) (h : W32) : Nat :=
  match s.handle h with
  | none => 4096
  | some r => 4096 + ((List.range r.lcCount).map (fun i =>
      512 + (((s.lsite r.part (r.lcFirst + i)).bind (fun g => s.mirror.find g)).map (fun m => m.regions.length)).getD 0)).sum

/-- The entry of the table of histories that is of a RUN's program (R329). -/
def histIs (h : Handle) (e : Nat × W64 × Nat × Nat) : Bool := e.1 == h.part && e.2.1 == h.pkt.p1 && e.2.2.1 == h.lcCount

/-- The planner's prediction E in µJ, rounded up (R329, R409, R470). -/
def State.predict (s : State) (h : Handle) : Nat :=
  let x := s.prt h.part
  match h.opcode with
  | 0x30 =>
    if bits h.pkt.p6 31 0 != 0 then bits h.pkt.p6 31 0 * 1000
    else match s.panel.history.find? (histIs h) with
      | some e => e.2.2.2
      | none => (x.beff + 7) / 8
  | 0x22 | 0x23 => (bits h.pkt.p2 39 0 * 6 + 99) / 100
  | 0x24 => (bits h.pkt.p1 39 0 * 6 + 99) / 100
  | 0x25 => (s.imageBytes (h.pkt.p0.setWidth 32) * 6 + 99) / 100
  | 0x26 => (bits h.pkt.p1 40 0 * 2 + 99) / 100
  | _ => 0

/-- The commands that AFTER waits for have completed (R289). -/
def State.afterOk (s : State) (h : Handle) : Bool :=
  h.after.all (fun a => match s.handle a with | some x => x.state == .complete | none => true)

/-- A program's history is renewed with what a RUN of it has used; of 256 entries the least recently used is replaced
(R329). -/
def histPut (l : List (Nat × W64 × Nat × Nat)) (h : Handle) : List (Nat × W64 × Nat × Nat) :=
  let v := match l.find? (histIs h) with | some x => (3 * x.2.2.2 + h.charged) / 4 | none => h.charged
  ((h.part, h.pkt.p1, h.lcCount, v) :: l.filter (fun x => !histIs h x)).take 256

/-- A prediction has used the history of its program. -/
def State.histUse (s : State) (h : Handle) : State :=
  if h.opcode == 0x30 && bits h.pkt.p6 31 0 == 0 then
    let l := s.panel.history
    { s with panel := { s.panel with history := l.filter (histIs h) ++ l.filter (fun x => !histIs h x) } }
  else s

/-! Firmware's transfers, R195, R299. -/

/-- Bytes of the one memory that a firmware transfer touches: their address, length, granule, place in the
transfer, and the scratchpad or slice they lie in with the offset there (host memory has unit none). -/
structure FwPiece where
  mem : Nat
  len : Nat
  z : Nat
  off : Nat
  site : Option Nat
  slice : Option Nat
  uoff : Nat

/-- Where byte address `a` of partition q lies for firmware (R299): space 0x0 through the units allocated, space 0x3
through the partition's own core map, space 0x8 behind its port. -/
def State.fwAt (s : State) (q : Nat) (a : W64) : Option FwPiece :=
  let x := s.prt q
  match addrSpace a with
  | 0 =>
    if bits a 59 42 != 0 then none else
    (x.units.find (bits a 41 30)).bind (fun u =>
      let k := s.sliceOf (u * 2 ^ 30 + bits a 29 0)
      if s.hbm.downNow.contains k.1 || s.hbm.owner.getD u 127 != q then none
      else some ⟨hbmBase k.1 + k.2, 0, 32, 0, none, some k.1, k.2⟩)
  | 3 =>
    if bits a 46 23 != 0 || spSize ≤ bits a 22 0 || x.ncores ≤ bits a 59 47 then none else
    (s.lsite q (bits a 59 47)).map (fun g => ⟨spBase g + bits a 22 0, 0, 8, 0, some g, none, bits a 22 0⟩)
  | 8 =>
    if bits a 57 57 != 0 || bits a 59 58 != x.hport || !x.bound then none
    else some ⟨hostBase x.hport + bits a 56 0, 0, 1, 0, none, none, 0⟩
  | _ => none

/-- A run of bytes cut at 32-byte boundaries, up to the first byte that is not reached; and whether all were. -/
def State.fwPieces (s : State) (q fuel : Nat) (a : W64) (off n : Nat) : List FwPiece × Bool :=
  match fuel with
  | 0 => ([], n == 0)
  | k + 1 =>
    if n == 0 then ([], true)
    else
      let m := min n (32 - a.toNat % 32)
      match s.fwAt q a with
      | none => ([], false)
      | some p =>
        let r := s.fwPieces q k (a + BitVec.ofNat 64 m) (off + m) (n - m)
        ({ p with len := m, off := off } :: r.1, r.2)

def State.fwRun (s : State) (q : Nat) (a : W64) (n : Nat) : List FwPiece × Bool := s.fwPieces q (n / 32 + 2) a 0 n

/-- The value of pieces, and the bytes of them that are poisoned: (place, length). -/
def State.fwVal (s : State) (l : List FwPiece) : Nat × List (Nat × Nat) :=
  (l.foldr (fun p a => memRead s.mem p.mem p.len * 256 ^ p.off + a) 0,
   l.flatMap (fun p => ((granules p.mem p.len p.z).filter (fun g => s.poison.contains g)).map (fun g =>
     (p.off + (max g p.mem - p.mem), min (g + p.z) (p.mem + p.len) - max g p.mem))))

/-- Reading corrects what can be corrected, and tells what a maintenance transfer copies poisoned (R191, R192, R222). -/
def State.fwCorrect (s : State) (q : Nat) (l : List FwPiece) : State :=
  l.foldl (fun s p => match p.site, p.slice with
    | some g, _ => s.readAll g p.uoff p.len 3 1
    | none, some k => (s.weakAt p.mem p.len 32).foldl (fun s a => s.hbmCorrected k a q) s
    | none, none => s) s

/-- Write a value over pieces; poisoned bytes of the source poison what they land in (R191, R222). -/
def State.fwPut (s : State) (l : List FwPiece) (v : Nat) (po : List (Nat × Nat)) : State :=
  l.foldl (fun s p =>
    let w := v / 256 ^ p.off % 256 ^ p.len
    let bad := po.any (fun e => e.1 < p.off + p.len && p.off < e.1 + e.2)
    match p.site with
    | some g => s.spStoreP g p.uoff p.len w bad
    | none => s.storeP p.mem p.len w p.z bad) s

/-! The start and the end of a RUN, R301–R306. -/

/-- Sites of a RUN's logical cores that are mapped. -/
def State.runSites (s : State) (h : Handle) : List Nat :=
  (List.range h.lcCount).filterMap (fun i => s.lsite h.part (h.lcFirst + i))

/-- A command starts afresh the counts its record reports (R89). -/
def Handle.fresh (h : Handle) : Handle := { h with cnt := [], warned := 0, promoted := 0, epoch := 0, rolledBack := false }

/-- One core of a RUN starts (R301, steps 2–6). -/
def State.launchCore (s : State) (h : Handle) (i g : Nat) (img : Nat) (po : List (Nat × Nat)) : State :=
  let bp := corePage g
  let s := iter 24 (fun b s => s.setFld bp (SP_BANK_OWNER b) ownSeq) s
  let n := bits h.pkt.p2 22 0
  let s := iter (n / 8) (fun k s => s.spStoreP g (8 * k) 8 (img / 256 ^ (8 * k) % 2 ^ 64)
    (po.any (fun e => e.1 < 8 * k + 8 && 8 * k < e.1 + e.2))) s
  let s := s.setFld bp SEQ_CFG_ENTRY (bits h.pkt.p2 63 44)
  let l : Quad := ⟨h.pkt.p3, h.pkt.p4, h.pkt.p5, BitVec.ofNat 64 i⟩
  let s := s.updCore g (fun c => { c with handle := h.h, launch := l })
  ((s.siteWake g).seqStart g).gated g

def State.runCore (s : State) (h : Handle) (i g : Nat) (img : Nat) (po : List (Nat × Nat)) : State :=
  (s.clearLocked g).launchCore h i g img po

/-- Decide the status of a RUN (R295, R297, R306): its cores' CFG_LOCKED_WR bits are read and cleared, its counts
raise an OK status, its energy renews the program's history (R329), and its record is queued, or with `fin` only decided. -/
def State.runEnd (s : State) (h : W32) (status : Nat) (fin : State → W32 → Nat → State := State.complete) : State :=
  match s.handle h with
  | none => s
  | some x =>
    if x.state == .complete then s else
    let sites := s.jobSites h
    let locked := sites.any (fun g => s.anyLocked g)
    let s := sites.foldl (fun s g => (s.clearLocked g).updCore g (fun c => { c with handle := 0#32 })) s
    let st := statusMax status (if locked && x.strict then stCfgLocked else 0)
    let st := statusMax st (if x.warned == 0 then 0 else stWarn)
    let st := statusMax st (if x.promoted == 0 then 0 else stPromoted)
    let st := statusMax st (if x.rolledBack then stRolled else 0)
    let s := s.updHandle h (fun y => { y with locked := locked })
    let s := if x.state == .waiting then s else
      { s with panel := { s.panel with history := histPut s.panel.history x } }
    let s := fin s h st
    let s := if s.runLive x.part then s else s.epochBoundary x.part
    s.overClear x.part

/-- Stop the cores of a job and reset them to IDLE (R303). -/
def State.idleJob (s : State) (h : W32) : State :=
  (s.jobSites h).foldl (fun s g =>
    (s.setCore g { (s.core g).stop.discard with seq := .idle }).dropTxs g) s

/-- Start a RUN that the planner has admitted (R301); a range with an unmapped core, or an image that cannot be
reached, ends it FAIL_CONTAINED without starting (R404, R416). -/
def State.runBegin (s : State) (h : Handle) : State :=
  let n := bits h.pkt.p2 22 0
  let l := s.fwRun h.part h.pkt.p1 n
  if (s.runSites h).length < h.lcCount || !l.2 then s.runEnd h.h stContained
  else
    let v := s.fwVal l.1
    let s := s.fwCorrect h.part l.1
    let s := s.updHandle h.h (fun x => { x.fresh with state := .running, startMs := s.ms, commitMs := s.ms })
    (List.range h.lcCount).foldl (fun s i => match s.lsite h.part (h.lcFirst + i) with
      | some g => s.runCore h i g v.1 v.2
      | none => s) s

/-- Destruction begins (R310, R316): the partition's live handles complete ABORT_PANEL, a resize that waits too
(R334); with `discard` their records go with it. -/
def State.destroyBegin (s : State) (q : Nat) (keep : W32) (discard : Bool) : State :=
  let mine := s.handles.filter (fun h => h.target == q && h.h != keep && h.opcode != 0x10 && h.state != .complete)
  let s := mine.foldl (fun s h =>
    if h.opcode == 0x30 then (s.idleJob h.h).runEnd h.h stAbortPanel else s.complete h.h stAbortPanel) s
  let s := ((s.handles.filter (fun h => h.target == q && h.due)).map (·.h)).foldl State.queueRecord s
  let s := { s with chk := s.chk.filter (fun e => e.2.part != q) }
  let s := if discard then
      let gone := fun (h : W32) => (s.handle h).any (fun x => x.part == q && h.toNat / 2 ^ 20 < 4032)
      let s := s.updPrt q (fun x => { x with held := [] })
      { s with handles := s.handles.filter (fun h => !(gone h.h && h.h != keep)) }
    else s
  s.updPrt q (fun x => { x with state := .destroying, causes := [], resize := none, destroyAfter := false })

/-- What a waiting command does when it starts. -/
def State.startCmd (s : State) (h : Handle) : State :=
  let run := fun (s : State) => s.updHandle h.h (fun x => { x with state := .running })
  match h.opcode with
  | 0x30 => s.runBegin h
  | 0x11 =>
    -- PART_RESIZE (R322)
    let x := s.prt h.target
    let n := bits h.pkt.p1 12 0
    let s := (run s).setHbmQuota h.target (bits h.pkt.p2 11 0)
    if x.ncores < n then
      let s := s.updPrt h.target (fun x => { x with ncores := n })
      let s := s.seatAll h.target
      if s.runLive h.target then s else s.cacheDropPart h.target
    else if x.ncores == n then s.complete h.h stOk
    else s.overClear h.target
  | 0x12 =>
    -- PART_DESTROY (R316, R317)
    let s := run s
    if (s.prt h.target).state == .creating then s.updPrt h.target (fun x => { x with destroyAfter := true })
    else s.destroyBegin h.target h.h false
  | 0x15 => (run s).pausePart h.target .host (some 1)
  | 0x21 =>
    -- MEM_FREE: the entries leave the window sets (R323)
    let u := bits h.pkt.p0 11 0
    let n := bits h.pkt.p0 27 16
    let s := run s
    let gone := (s.prt h.target).units.range u (u + n)
    let s := s.updHandle h.h (fun x => { x with cnt := gone })
    let s := s.updPrt h.target (fun x => { x with units := x.units.eraseRange u (u + n) })
    let s := s.writeSets h.target
    if s.runLive h.target then s else s.cacheDropPart h.target
  | _ => run s

/-- The command waits while its partition is paused (R305, R316). -/
def pauseHolds (op : Nat) : Bool := op != 0x15 && op != 0x12 && op != 0x10

/-- Start the waiting commands of partition q in the order they were taken (R289, R305, R330): a governed command
that does not fit is deferred, and no later one of the partition is admitted before it; in thermal hold none is admitted
(R334). -/
def State.startList (s : State) (q : Nat) (l : List W32) (blocked : Bool) : State :=
  match l with
  | [] => s
  | a :: r =>
    match s.handle a with
    | none => s.startList q r blocked
    | some h =>
      let x := s.prt h.target
      if h.state != .waiting || !s.afterOk h || (pauseHolds h.opcode && x.state == .paused) then s.startList q r blocked
      else if governed h.opcode then
        let e := s.predict h
        let s := s.histUse h
        if blocked || s.therm.hold != 0 || x.beff < x.spent + s.reserved q + min e x.beff then
          (s.updHandle a (fun y => { y with deferred := true })).startList q r true
        else ((s.updHandle a (fun y => { y with est := e, deferred := false })).startCmd h).startList q r blocked
      else (s.startCmd h).startList q r blocked

def State.startWaiting (s : State) (q : Nat) : State :=
  s.startList q ((s.handles.filter (fun h => h.target == q && h.state == .waiting)).map (fun h => h.h)) false

/-- Every partition's waiting commands, and those that work on no partition. -/
def State.startAll (s : State) : State := (partIds ++ [127]).foldl (fun s q => s.startWaiting q) s

/-- End a live command before it has completed (R302, R303, R390): a fault of a core of the RUN is the higher status (R297,
R314). -/
def State.endCmd (s : State) (h : W32) (status : Nat) (fin : State → W32 → Nat → State := State.complete) : State :=
  match s.handle h with
  | none => s
  | some x =>
    if x.opcode == 0x30 then
      let hurt := (s.jobSites h).any (fun g => (s.core g).seq == .faulted)
      (s.idleJob h).runEnd h (statusMax status (if hurt then stContained else stOk)) fin
    else if x.opcode == 0x11 then
      -- a resize that does not go on gives back what it reserved
      let drop := fun (y : Partition) => { y with resize := none, cores := y.cores.filter (fun e => e.1 < y.ncores) }
      fin (s.updPrt x.target (if x.state == .waiting then drop else fun y => { y with resize := none })) h status
    else fin { s with chk := s.chk.filter (fun e => e.2.handle != h) } h status

/-! Hosts that go and come, R308–R313. -/

def State.boundPart (s : State) (p f : Nat) : Option Nat :=
  partIds.find? (fun q => (s.prt q).live && (s.prt q).bound && (s.prt q).hport == p && (s.prt q).hfunc == f)

/-- OFFERED of port p (R283). -/
def State.offered (s : State) (p : Nat) : Nat := popMask 64 (fun q => (s.prt q).live && (s.prt q).hport == p)

/-- Give or take the administrator role, with the ROLE notices (R312, R313). -/
def State.setAdmin (s : State) (a : Option (Nat × Nat)) : State :=
  let old := s.panel.admin
  let s := { s with panel := { s.panel with admin := a, adminByFacility := false } }
  let s := match old with
    | some (p, f) => s.noticeFn p f noteRole 127 0 0 0
    | none => s
  match a with
  | some (p, f) => s.noticeFn p f noteRole 127 1 0 0
  | none => s

/-- An orphan's grace count ends (R310): of its commands, those that have started and have host memory still to reach end. -/
def State.graceEnd (s : State) (q : Nat) : State :=
  let x := s.prt q
  if !x.orphaned then s
  else if x.policy then
    if x.state == .creating then s.updPrt q (fun x => { x with destroyAfter := true })
    else s.destroyBegin q 0#32 true
  else
    let s := s.pausePart q .orphan (some 2)
    (s.handles.filter (fun h => h.part == q && [0x22, 0x23, 0x26].contains h.opcode && h.state == .running)).foldl (fun s h => s.endCmd h.h stContained) s

/-- A record of the panel pool stays with the function that issued the command (R293, R313). -/
def Held.panelPool (e : Held) : Bool := !e.notice && 4032 ≤ e.h.toNat / 2 ^ 20

/-- Steps 1 to 4 of R309 for one function; commands that have been read are processed with the binding and the role they were
read under, and their replies are discarded. -/
def State.detach (s : State) (p f : Nat) : State :=
  let s := s.ringsOff p f true
  let was := ((s.boundPart p f).getD 127, s.panel.admin == some (p, f))
  let s := s.setFunc p f { s.func p f with inbox := (s.func p f).inbox.map (fun e => { e with late := e.late.or (some was) }) }
  let s := if s.panel.admin == some (p, f) then s.setAdmin none else s
  match s.boundPart p f with
  | none => s
  | some q =>
    let x := s.func p f
    let mine := x.held.filter (fun e => e.part == q && !e.panelPool)
    let s := s.setFunc p f { x with held := x.held.filter (fun e => !(e.part == q && !e.panelPool)) }
    let s := s.updPrt q (fun y => { y with bound := false, orphaned := true,
                                           held := mine.foldl holdEntry y.held })
    if (s.prt q).grace == 0 then s.graceEnd q else s

/-- A link-down of port p (R309). -/
def State.linkGone (s : State) (p : Nat) : State :=
  if !(s.port p).up then s
  else
    let s0 := s
    let s := s.setPort p { s.port p with up := false }
    let s := (List.range 64).foldl (fun s f => s.detach p f) s
    s.capSync s0

/-- Link-up of port p (R308). -/
def State.linkCome (s : State) (p : Nat) : State :=
  let x := s.port p
  if x.up || !x.answers then s
  else
    let s0 := s
    let s := s.setPort p { x with up := true, everUp := true }
    let s := if x.everUp then
      (List.range 64).foldl (fun s f => s.setFld (barPage p f) FUNC_STATUS_RINGS_LOST 1) s else s
    s.capSync s0

/-! The ceiling in force, R331, R347, R370, R462, R464. -/

/-- The input term of R347 in W, rounded; none while the input is at 45 V or above, or not yet reported. -/
def State.inputTerm (s : State) : Nat :=
  if 0 < s.power.inputMv && s.power.inputMv < 45000 then (2 * s.power.inputMv * 4 + 15) / 30 else 12000

/-- The facility ceiling (R347, R370, R462, R464). -/
def State.facilityCeiling (s : State) : Nat :=
  if s.fac.safe then min 4800 s.inputTerm
  else
    let c := min s.fac.facCeil s.inputTerm
    let c := if s.therm.ceilFormed then min c s.therm.ceilCool else c
    if s.fac.onBackup then min c 4800 else c

/-- The ceiling in force: the lower of it and the administrator's (R331). -/
def State.ceilingNow (s : State) : Nat :=
  if s.panel.adminCeil == 0 then s.facilityCeiling else min s.panel.adminCeil s.facilityCeiling

/-- CEILING_W follows, with a CEILING notice to every partition's function (R331). -/
def State.ceilSync (s : State) : State :=
  let c := s.ceilingNow
  if c == s.panel.ceilingW then s
  else (({ s with panel := { s.panel with ceilingW := c } } : State).noticeAll noteCeiling c 0 0).capSync s

/-! Dies and the reserve, R26–R31. -/

/-- The slot map of die d, built afresh: slots number the counted sites in ascending order (R213). -/
def State.buildSlots (s : State) (d : Nat) : State :=
  let k := spinePage d
  let l := s.countedSites d
  (List.range 14).foldl (fun s j =>
    match l[j]? with
    | some i => (s.setFld k (SLOT_MAP_VALID j) 1).setFld k (SLOT_MAP_SITE j) i
    | none => (s.setFld k (SLOT_MAP_VALID j) 0).setFld k (SLOT_MAP_SITE j) 0) s

/-- A die's state changes (R31), with a HEALTH notice to each partition with cores on it (R384); the Finders of a die
in PROBATION sample every element (R77, R399), and a die that is COUNTED again has its slots numbered afresh (R213). -/
def State.setDie (s : State) (d v : Nat) : State :=
  if s.dieState d == v then s
  else
    let l := s.dieParts d
    let prob := s.dieState d == dieProbation
    let s := if v == dieDark then s.setAlm (almKey almBefore d) (s.dieState d) else s
    let was := s.dieState d
    let s := s.setAlm (almKey almDie d) v
    let s := if v == dieCounted && (was == dieReserve || was == dieRetest || was == dieRetired) then s.buildSlots d else s
    let s := if prob == (v == dieProbation) then s
      else (List.range 16).foldl (fun s i => s.setFld (corePage (16 * d + i)) FINDER_CFG_PROBATION
        (if v == dieProbation then 1 else 0)) s
    l.foldl (fun s q => s.noticePart q noteHealth d v 0) s

/-- The die in reserve of a block (R28). -/
def State.reserveOf (s : State) (b : Nat) : Option Nat := (blockDies b).find? (fun d => s.dieState d == dieReserve)

/-- Choose the reserve of a block (R26, R27): among its COUNTED dies the one by the tests of R26; a die that holds a
partition's work is not made the reserve, and the choice waits. -/
def State.chooseReserve (s : State) (b : Nat) : State :=
  let old := s.reserveOf b
  let cand := (blockDies b).filter (fun d => s.dieState d == dieCounted || s.dieState d == dieReserve)
  let rank := fun d => (s.blockCount b d, (s.countedSites d).length, s.score d)
  let better := fun (a b : Nat × Nat × Nat) =>
    b.1 < a.1 || (a.1 == b.1 && (b.2.1 < a.2.1 || (a.2.1 == b.2.1 && b.2.2 < a.2.2)))
  let best := cand.foldl (fun (x : Option Nat) d => match x with
    | none => some d
    | some y => if better (rank d) (rank y) then some d else some y) none
  let due := fun (l : List Nat) (s : State) => { s with err := { s.err with reserveDue := l } }
  match best with
  | none => due (setDel s.err.reserveDue b) s
  | some d =>
    if some d == old then due (setDel s.err.reserveDue b) s
    else if !(s.dieParts d).isEmpty then due (setIns s.err.reserveDue b) s
    else
      let s := match old with
        | some o => s.setDie o dieCounted
        | none => s
      due (setDel s.err.reserveDue b) (s.setDie d dieReserve)

/-- Choices that waited for work to end (R27). One still waiting when the block's reserve takes over a failed die is made
all the same (DESIGN CHOICE, log entry 66: R28 leaves the block without a reserve until a die is reinstated). -/
def State.reserveRetry (s : State) : State := (s.err.reserveDue.foldl (fun s b => s.chooseReserve b) s).capSync s

end Sys2Proof.Machine
end

