-- ==== Sys2Proof/Machine/Host.lean ====
section
/-! DEFINITION. What the host side of a port does to the panel: BAR0 writes and doorbells (R282–R284, R489), the taking
of commands (R285, R286), completion interrupts (R288), links that come and go and Function Level Resets (R308, R309). -/

namespace Sys2Proof.Machine

/-- Controller m, M0 or M1. -/
def Boot.ctl (b : Boot) (m : Nat) : Ctl := if m == 0 then b.c0 else b.c1
def Boot.setCtl (b : Boot) (m : Nat) (c : Ctl) : Boot := if m == 0 then { b with c0 := c } else { b with c1 := c }

/-- The controller that serves port p (R285, R393): M0 H0 and H2, M1 H1 and H3, or the other while it runs alone. -/
def State.server (s : State) (p : Nat) : Option Nat :=
  let m := p % 2
  if (s.boot.ctl m).running then some m
  else if (s.boot.ctl (1 - m)).running && (s.boot.ctl (1 - m)).sole then some (1 - m)
  else none

/-- Firmware runs on a controller: BAR0 takes writes (R428). -/
def State.fwRuns (s : State) : Bool := s.boot.c0.running || s.boot.c1.running

/-- Entries from index a on to index b of a ring. -/
def ringDist (size a b : Nat) : Nat := (b + size - a) % size

/-- A doorbell write that is ignored (R284). -/
def State.dbError (s : State) (p f : Nat) : State := s.addSat (barPage p f) FUNC_STATUS_DB_ERRORS 1

/-- Every partition's over-quota bits follow what it uses (R324). -/
def State.settle (s : State) : State :=
  partIds.foldl (fun s q => if (s.prt q).live then s.overClear q else s) s

/-- A write of SQ_TAILi (R284). -/
def State.ringSqTail (s : State) (p f i : Nat) (v : W64) : State :=
  let bp := barPage p f
  let x := s.func p f
  let size := ringSize (s.fld bp (SQ_CFG_LOG2SIZE i))
  let idx := bits v 15 0
  let head := s.fld bp (SQ_CFG_HEAD i)
  if !s.flag bp (SQ_CFG_ENABLE i) || size ≤ idx || ringDist size head idx < ringDist size head (x.sqTail.getD i 0) then
    s.dbError p f
  else s.setFunc p f { x with sqTail := x.sqTail.set i idx }

/-- A head doorbell may move from `old` to `idx` no further than the panel's tail (R284). -/
def headOk (enable : Bool) (log2 old tail idx : Nat) : Bool :=
  enable && idx < ringSize log2 && ringDist (ringSize log2) old idx ≤ ringDist (ringSize log2) old tail

/-- A write of RQ_HEAD (R284, R286). -/
def State.ringRqHead (s : State) (p f : Nat) (v : W64) : State :=
  let bp := barPage p f
  let x := s.func p f
  let idx := bits v 15 0
  if headOk (s.flag bp RQ_CFG_ENABLE) (s.fld bp RQ_CFG_LOG2SIZE) x.rqHead (s.fld bp RQ_CFG_TAIL) idx then
    s.setFunc p f { x with rqHead := idx }
  else s.dbError p f

/-- A write of CQ_HEAD (R284, R287): held entries are written as room appears. -/
def State.ringCqHead (s : State) (p f : Nat) (v : W64) : State :=
  let bp := barPage p f
  let x := s.func p f
  let idx := bits v 15 0
  if headOk (s.flag bp CQ_CFG_ENABLE) (s.fld bp CQ_CFG_LOG2SIZE) x.cqHead (s.fld bp CQ_CFG_TAIL) idx then
    ((s.setFunc p f { x with cqHead := idx }).cqFlush p f).settle
  else s.dbError p f

/-- A write of LOG_HEAD (R489). -/
def State.ringLogHead (s : State) (p f : Nat) (v : W64) : State :=
  let bp := barPage p f
  let x := s.func p f
  let idx := bits v 15 0
  if headOk (s.flag bp LOG_CFG_ENABLE) (s.fld bp LOG_CFG_LOG2SIZE) x.logHead (s.fld bp LOG_CFG_TAIL) idx then
    s.setFunc p f { x with logHead := idx }
  else s.dbError p f

/-- A write of a ring's BASE or CFG register (R283): Locked fields are taken while ENABLE is clear as it stands before
the write, else dropped and recorded; setting ENABLE zeroes the ring's pointers and sets its phase to 1. -/
def State.ringWrite (s : State) (p f off : Nat) (v : W64) : State :=
  let bp := barPage p f
  match findReg barRegs off with
  | none => s
  | some d =>
    let sq := off < 0x180
    let i := (off - 0x100) / 16
    let en := if sq then SQ_CFG_ENABLE i else if off < 0x190 then RQ_CFG_ENABLE else CQ_CFG_ENABLE
    let was := s.flag bp en
    let v := if off == 0x188 then setBits v 47 24 0 else v
    let r := s.writeReg bp d v false (!was)
    let s := if r.2 then r.1.setFld bp FUNC_STATUS_CFG_LOCKED_WR 1 else r.1
    if was || !s.flag bp en then s
    else
      let x := s.func p f
      if sq then (s.setFld bp (SQ_CFG_HEAD i) 0).setFunc p f { x with sqTail := x.sqTail.set i 0 }
      else if off < 0x190 then (s.setFld bp RQ_CFG_TAIL 0).setFunc p f { x with rqHead := 0, rqPhase := true }
      else
        (((s.setFld bp CQ_CFG_TAIL 0).setFunc p f { x with cqHead := 0, cqPhase := true }).cqFlush p f).settle

/-- A write of the MSI-X table: a vector that is unmasked while pending is sent (R282, R288). -/
def State.msixWrite (s : State) (p f off : Nat) (v : W64) : State :=
  let bp := barPage p f
  let i := (off - 0x2000) / 16
  let s := s.setReg (bp + off) v
  if off % 16 == 8 && !bit v 32 && bit (s.reg (bp + 0x2800) 0) i then
    (s.setReg (bp + 0x2800) (setBits (s.reg (bp + 0x2800) 0) i i 0)).msix p f i
  else s

/-- A host's write of BAR0 (R282, R428): discarded while no firmware runs, while the port's link is down, at offsets
not listed and at read-only registers. -/
def State.barWrite (s : State) (p f off : Nat) (v : W64) : State :=
  if !(s.port p).up || !s.fwRuns || off % 8 != 0 then s
  else if off == 0x40 then (s.writeReg (barPage p f) FUNC_STATUS v false true).1
  else if off == 0x48 then (if bit v 0 then s.ringsOff p f false else s)
  else if 0x100 ≤ off && off < 0x1A0 then s.ringWrite p f off v
  else if 0x1000 ≤ off && off < 0x1040 then s.ringSqTail p f ((off - 0x1000) / 8) v
  else if off == 0x1040 then s.ringRqHead p f v
  else if off == 0x1048 then s.ringCqHead p f v
  else if off == 0x1050 then s.ringLogHead p f v
  else if 0x2000 ≤ off && off < 0x2020 then s.msixWrite p f off v
  else s

/-- What a function shows in its PCIe configuration space (R280); the vendor's identifier is open (log entry 71). -/
structure PciIds where
  vendor : BitVec 16
  device : BitVec 16
  subsystem : Nat
  classCode : BitVec 24
  barBytes : Nat
  deriving DecidableEq, Repr

def State.pciIds (s : State) (f : Nat) : PciIds :=
  ⟨Config.pciVendor, if f == 0 then 0x5A10#16 else 0x5A11#16, s.part.code, 0x120000#24, 16384⟩

/-- Function f of a port that the part carries (R279, R280). -/
def State.hasFunc (s : State) (p f : Nat) : Bool := funcOk p f && s.part.hasPort p

/-- SQ_TAIL (R284). -/
def execSqTail (p f ring : Nat) (v : W64) (s : State) : Out :=
  onUnit (s.hasFunc p f && ringOk ring) (fun s => s.barWrite p f (0x1000 + 8 * ring) v) s

/-- RQ_HEAD (R284, R286). -/
def execRqHead (p f : Nat) (v : W64) (s : State) : Out :=
  onUnit (s.hasFunc p f) (fun s => s.barWrite p f 0x1040 v) s

/-- CQ_HEAD (R284, R287). -/
def execCqHead (p f : Nat) (v : W64) (s : State) : Out :=
  onUnit (s.hasFunc p f) (fun s => s.barWrite p f 0x1048 v) s

/-- LOG_HEAD (R489). -/
def execLogHead (p f : Nat) (v : W64) (s : State) : Out :=
  onUnit (s.hasFunc p f) (fun s => s.barWrite p f 0x1050 v) s

/-- A write of a ring's BASE or CFG register (R283); another offset is not this command. -/
def execRingCfgWrite (p f off : Nat) (v : W64) (s : State) : Out :=
  onUnit (s.hasFunc p f) (fun s => if 0x100 ≤ off && off < 0x1A0 then s.barWrite p f off v else s) s

/-- FUNC_CTRL.RING_RESET (R283, R489). -/
def execRingReset (p f : Nat) (s : State) : Out :=
  onUnit (s.hasFunc p f) (fun s => s.barWrite p f 0x48 1#64) s

/-! Taking commands, R285, R286. -/

/-- Commands that submission ring i holds. -/
def State.sqCount (s : State) (p f i : Nat) : Nat :=
  let bp := barPage p f
  if s.flag bp (SQ_CFG_ENABLE i) then
    ringDist (ringSize (s.fld bp (SQ_CFG_LOG2SIZE i))) (s.fld bp (SQ_CFG_HEAD i)) ((s.func p f).sqTail.getD i 0)
  else 0

/-- The reply ring is full (R283, R286). -/
def State.rqFull (s : State) (p f : Nat) : Bool :=
  let bp := barPage p f
  let size := ringSize (s.fld bp RQ_CFG_LOG2SIZE)
  s.flag bp RQ_CFG_ENABLE && (s.fld bp RQ_CFG_TAIL + 1) % size == (s.func p f).rqHead

/-- Replies the reply ring can still take, less those owed to commands already taken. -/
def State.rqRoom (s : State) (p f : Nat) : Nat :=
  let bp := barPage p f
  if s.flag bp RQ_CFG_ENABLE then
    let size := ringSize (s.fld bp RQ_CFG_LOG2SIZE)
    size - 1 - ringDist size (s.func p f).rqHead (s.fld bp RQ_CFG_TAIL) - (s.func p f).inbox.length
  else 0

/-- The first enabled ring that holds commands, from ring i on. -/
def State.nextRing (s : State) (p f i : Nat) : Option Nat :=
  ((List.range 8).map (fun j => (i + j) % 8)).find? (fun j => 0 < s.sqCount p f j)

/-- A packet as it lies in host memory (R289). -/
def CmdPkt.of (v : Nat) : CmdPkt :=
  let w := fun i => BitVec.ofNat 64 (v / 2 ^ (64 * i))
  ⟨w 0, w 1, w 2, w 3, w 4, w 5, w 6, w 7⟩

/-- Take one command of ring i. -/
def State.fetchOne (s : State) (p f i : Nat) : State :=
  let bp := barPage p f
  let head := s.fld bp (SQ_CFG_HEAD i)
  let size := ringSize (s.fld bp (SQ_CFG_LOG2SIZE i))
  let q := CmdPkt.of (s.hostRead p ((s.reg (bp + 0x100 + 16 * i) 0).toNat / 4096 * 4096 + 64 * head) 64)
  let s := s.setFld bp (SQ_CFG_HEAD i) ((head + 1) % size)
  s.setFunc p f { s.func p f with inbox := (s.func p f).inbox ++ [⟨i, q, none⟩] }

/-- A function's turn: up to WEIGHT commands of its current ring. -/
def State.fetchTurn (s : State) (p f i : Nat) : State :=
  let n := min (max 1 (s.fld (barPage p f) (SQ_CFG_WEIGHT i))) (min (s.sqCount p f i) (s.rqRoom p f))
  let s := iter n (fun _ s => s.fetchOne p f i) s
  (s.setFunc p f { s.func p f with cur := (i + 1) % 8 }).setPort p { s.port p with turn := (f + 1) % 64 }

/-- COMMAND_FETCH (R285): the turn of the next function of the port that holds commands and has room for replies. -/
def execCommandFetch (p : Nat) (s : State) : Out :=
  onUnit (s.hasFunc p 0) (fun s =>
    if (s.server p).isNone || !(s.port p).up then s
    else
      match ((List.range 64).map (fun j => ((s.port p).turn + j) % 64)).find?
        (fun f => 0 < s.rqRoom p f && (s.nextRing p f (s.func p f).cur).isSome) with
      | none => s
      | some f =>
        match s.nextRing p f (s.func p f).cur with
        | some i => s.fetchTurn p f i
        | none => s) s

/-- CQ_INTERRUPT (R288): HOLDOFF µs have passed since the first unsignalled record. -/
def execCqInterrupt (p f : Nat) (s : State) : Out :=
  onUnit (s.hasFunc p f) (fun s =>
    let x := s.func p f
    if x.unsignalled == 0 then s else (s.setFunc p f { x with unsignalled := 0 }).msix p f 1) s

/-! Links, R308, R309. -/

/-- HOST_LINK_UP (R308). -/
def execHostLinkUp (p : Nat) (s : State) : Out := onUnit (s.hasFunc p 0) (fun s => s.linkCome p) s

/-- HOST_LINK_DOWN (R309). -/
def execHostLinkDown (p : Nat) (s : State) : Out := onUnit (s.hasFunc p 0) (fun s => s.linkGone p) s

/-- A Function Level Reset (R309): its steps for one function, with RINGS_LOST. -/
def execFunctionLevelReset (p f : Nat) (s : State) : Out :=
  onUnit (s.hasFunc p f) (fun s =>
    if (s.port p).up then (s.detach p f).setFld (barPage p f) FUNC_STATUS_RINGS_LOST 1 else s) s

/-- ORPHAN_GRACE_EXPIRE (R310): a grace count does not run while the partition is paused (R305). -/
def execOrphanGraceExpire (part : Nat) (s : State) : Out :=
  onUnit (partOk part) (fun s => if (s.prt part).causes.isEmpty then s.graceEnd part else s) s

/-- What FUNC_STATUS shows besides its stored bits (R283). -/
def State.funcStatus (s : State) (p f : Nat) : W64 :=
  let bp := barPage p f
  let x := s.func p f
  let q := s.boundPart p f
  let w := s.reg (bp + 0x40) FUNC_STATUS.reset
  let w := setBits (setBits w 56 50 (q.getD 127)) 49 49 (b2n q.isSome)
  let w := setBits w 48 48 (b2n (s.panel.admin == some (p, f)))
  let wants := (s.nextRing p f 0).isSome || !x.inbox.isEmpty
  setBits (setBits w 3 3 (b2n (s.rqFull p f && wants))) 2 2 (b2n (!x.held.isEmpty))

/-- What a read of BAR0 shows (R282, R283, R428). -/
def State.barView (s : State) (p f off : Nat) : W64 :=
  if off % 8 != 0 then 0#64
  else if off < 0x40 then
    if s.fwRuns then BitVec.ofNat 64 (s.capRecord / 2 ^ (8 * off))
    else BitVec.ofNat 64 (State.capRecord { State.reset with part := s.part } / 2 ^ (8 * off))
  else if !s.fwRuns then 0#64
  else if off == 0x40 then s.funcStatus p f
  else if off == 0x80 then BitVec.ofNat 64 (s.offered p)
  else if off == 0x188 then setBits (s.reg (barPage p f + off) RQ_CFG.reset) 47 24 0
  else if off == 0x48 || (0x1000 ≤ off && off < 0x2000) then 0#64
  else match findReg (barRegs ++ barTables) off with
    | some d => s.reg (barPage p f + off) d.reset
    | none => 0#64

end Sys2Proof.Machine
end

