-- ==== Sys2Proof/Machine/Check.lean ====
section
/-! DEFINITION. Check units (R466, R467, R471): the four polynomials, the stream modes, a scan and its registers. -/

namespace Sys2Proof.Machine

/-- One bit step of a CRC of n bits that is not reflected. -/
def crcBit (n poly c : Nat) : Nat :=
  if c / 2 ^ (n - 1) % 2 == 1 then Nat.xor (c * 2 % 2 ^ n) poly else c * 2 % 2 ^ n

def crcUp (n poly init : Nat) (l : List Byte) : Nat :=
  l.foldl (fun c b => iter 8 (fun _ c => crcBit n poly c) (Nat.xor c (b.toNat * 2 ^ (n - 8)))) init

/-- The CRC of bytes under polynomial code p (R466). -/
def chkCrc (p : Nat) (l : List Byte) : Nat :=
  match p with
  | 0 => crcUp 16 0x1021 0xFFFF l
  | 1 => (~~~ (crc32With 0xEDB88320#32 0xFFFFFFFF#32 l)).toNat
  | 2 => (crc32c l).toNat
  | _ => crcUp 64 0x42F0E1EBA9EA3693 0 l

/-- A stream context (R467, R471). -/
structure ChkCtx where
  count : Nat
  last : Nat
  gaps : Nat
  repeats : Nat
  rejects : Nat
  run : Nat

/-- What a scan has found: the CRC, failed blocks, the context, and the trailers to write (place, 16 bytes). -/
structure ScanRes where
  crc : Nat
  bad : Nat
  ctx : ChkCtx
  trailers : List (Nat × Nat)

/-- One block of a stream, its data and trailer given (R467). Facility mode applies R459 to the counter's low byte. -/
def scanBlock (poly mode off : Nat) (data trailer : List Byte) (r : ScanRes) : ScanRes :=
  let x := r.ctx
  if mode == 1 then
    let t := toBytes (x.count % 65536) 8
    let c := chkCrc poly (data ++ t)
    { r with crc := c, ctx := { x with count := (x.count + 1) % 65536 },
             trailers := r.trailers ++ [(off + data.length, x.count % 65536 + c * 2 ^ 64)] }
  else
    let c := chkCrc poly (data ++ trailer.take 8)
    let good := ofBytes (trailer.drop 8) == c
    if mode == 2 then
      let n := ofBytes (trailer.take 2)
      let pass := good && n == x.count
      let y := if n == x.count then x
        else if n == x.last then { x with repeats := min 255 (x.repeats + 1) }
        else { x with gaps := min 255 (x.gaps + 1) }
      { r with crc := c, bad := r.bad + (if pass then 0 else 1),
               ctx := { y with count := (n + 1) % 65536, last := if pass then n else x.last } }
    else if !good then { r with crc := c, bad := r.bad + 1 }
    else
      let n := ofBytes (trailer.take 1)
      let d := (n + 256 - x.last % 256) % 256
      let y := if x.run == 3 then { x with last := n, run := 0 }
        else if d == 0 then { x with repeats := min 255 (x.repeats + 1) }
        else if d ≤ 4 then { x with last := n, run := 0, gaps := min 255 (x.gaps + d - 1) }
        else { x with rejects := min 255 (x.rejects + 1), run := x.run + 1 }
      { r with crc := c, ctx := y }

def scanBlocks (fuel poly mode blk off : Nat) (l : List Byte) (r : ScanRes) : ScanRes :=
  match fuel with
  | 0 => r
  | k + 1 =>
    if l.length < blk + 16 then r
    else scanBlocks k poly mode blk (off + blk + 16) (l.drop (blk + 16))
      (scanBlock poly mode off (l.take blk) ((l.drop blk).take 16) r)

/-- The result over the bytes a scan has read. -/
def scanBytes (poly mode blk : Nat) (ctx : ChkCtx) (l : List Byte) : ScanRes :=
  if mode == 0 then ⟨chkCrc poly l, 0, ctx, []⟩
  else scanBlocks l.length poly mode blk 0 l ⟨0, 0, ctx, []⟩

/-- A run of bytes cut at 32-byte boundaries, as `at` reaches them. -/
def pieceRun (reach : W64 → Option FwPiece) (fuel : Nat) (a : W64) (off n : Nat) : List FwPiece × Bool :=
  match fuel with
  | 0 => ([], n == 0)
  | k + 1 =>
    if n == 0 then ([], true)
    else
      let m := min n (32 - a.toNat % 32)
      match reach a with
      | none => ([], false)
      | some p =>
        let r := pieceRun reach k (a + BitVec.ofNat 64 m) (off + m) (n - m)
        ({ p with len := m, off := off } :: r.1, r.2)

/-- A site's scratchpad seen through the fabric with partition q: every bank for partition 127, else banks WINDOW
owns in cores of q (R195, R196). -/
def State.padPiece (s : State) (q g o : Nat) : Option FwPiece :=
  if q == 127 || ((s.core g).part == q && s.owner g (bankOf o) == ownWindow) then
    some ⟨spBase g + o, 0, 8, 0, some g, none, o⟩
  else none

/-- A byte that a check unit reads with partition q in CHK_CFG.PART (R466): spaces 0x0, 0x3 and 0x8 by the
partition's own maps, 0x1 and 0x2 by their units, each checked at its destination. -/
def State.chkAt (s : State) (q : Nat) (a : W64) : Option FwPiece :=
  match addrSpace a with
  | 1 =>
    let k := 64 * bits a 59 54 + bits a 53 48
    let o := bits a 29 0
    if bits a 47 30 != 0 || sliceSize ≤ o || !s.part.hasStack (k / 64) || s.hbm.downNow.contains k then none
    else if q == 127 || ((s.physOf k o).map (fun p => s.hbm.owner.getD (p / 2 ^ 30) 127)) == some q then
      some ⟨hbmBase k + o, 0, 32, 0, none, some k, o⟩
    else none
  | 2 =>
    let o := bits a 22 0
    if bits a 46 23 != 0 || spSize ≤ o || 384 ≤ bits a 59 51 then none
    else (s.slotSite (bits a 59 51) (bits a 50 47)).bind (fun g => s.padPiece q g o)
  | 3 => (s.fwAt q a).bind (fun p => p.site.bind (fun g => s.padPiece q g p.uoff))
  | _ => s.fwAt q a

/-- What a scan of n bytes does: bytes are read and corrected, poison is counted and not faulted, and trailers
are written in append mode (R466, R467). The answer is the state, the result, the poisoned granules, the bytes scanned
and whether every byte was reached. -/
def State.scan (s : State) (reach : W64 → Option FwPiece) (q poly mode blk : Nat) (ctx : ChkCtx) (a : W64) (n : Nat) :
    State × ScanRes × Nat × Nat × Bool :=
  let l := pieceRun reach (n / 32 + 2) a 0 n
  let v := s.fwVal l.1
  let got := (l.1.map (fun p => p.len)).sum
  let po := (l.1.map (fun p => ((granules p.mem p.len p.z).filter (fun g => s.poison.contains g)).length)).sum
  let s := s.fwCorrect q l.1
  let r := scanBytes poly mode blk ctx (toBytes v.1 got)
  let w := r.trailers.foldl (fun (x : State × Bool) t =>
    let l := pieceRun reach 3 (a + BitVec.ofNat 64 t.1) 0 16
    if x.2 && l.2 then (x.1.fwPut l.1 t.2 [], true) else (x.1, false)) (s, true)
  (w.1, r, po, got, l.2 && w.2)

/-! Registers of a check unit, R471. -/

/-- The page of check unit u: compute die d, or 384 + 2·m + i of a management die. -/
def chkPage (u : Nat) : Nat :=
  if u < 384 then spinePage u + 0xF500 else domePage (4 + (u - 384) / 2) + 0xA000 + 0x400 * ((u - 384) % 2)

def State.chkCtx (s : State) (u i : Nat) : ChkCtx :=
  let k := chkPage u
  ⟨s.fld k (CHK_CTX_COUNT i), s.fld k (CHK_CTX_LAST i), s.fld k (CHK_CTX_GAPS i), s.fld k (CHK_CTX_REPEATS i),
   s.fld k (CHK_CTX_REJECTS i), s.fld k (CHK_CTX_RUN i)⟩

def State.setChkCtx (s : State) (u i : Nat) (x : ChkCtx) : State :=
  let k := chkPage u
  (((((s.setFld k (CHK_CTX_COUNT i) x.count).setFld k (CHK_CTX_LAST i) x.last).setFld k (CHK_CTX_GAPS i) x.gaps).setFld
    k (CHK_CTX_REPEATS i) x.repeats).setFld k (CHK_CTX_REJECTS i) x.rejects).setFld k (CHK_CTX_RUN i) x.run

def State.chkBusy (s : State) (u : Nat) : Bool := s.flag (chkPage u) CHK_STATUS_BUSY

/-- The configuration allows a scan (R467, R468, R471). -/
def State.chkOkCfg (s : State) (u : Nat) : Bool :=
  let k := chkPage u
  let n := s.fld k CHK_LEN_LEN
  let blk := s.fld k CHK_CFG_BLKLEN
  let stream := s.fld k CHK_CFG_MODE != 0
  0 < n && n ≤ 2 ^ 40 && [0, 1, 2, 3, 8].contains (addrSpace (BitVec.ofNat 64 (s.fld k CHK_ADDR_W)))
    && !(384 ≤ u && u % 2 == 0 && s.fld k CHK_CFG_CTX < 3)
    && (!stream || (0 < blk && blk % 8 == 0 && n % (blk + 16) == 0))

/-- The status of a scan that begins: DONE, MISMATCH and the counts cleared. -/
def State.chkBegin (s : State) (u : Nat) (err busy : Nat) : State :=
  let k := chkPage u
  (((((s.setFld k CHK_STATUS_POISONED 0).setFld k CHK_STATUS_BLOCKS_BAD 0).setFld k CHK_STATUS_MISMATCH 0).setFld
    k CHK_STATUS_DONE 0).setFld k CHK_STATUS_ERROR err).setFld k CHK_STATUS_BUSY busy

/-- CHK_CTRL.GO (R471): a write while the unit is busy starts nothing. -/
def State.chkGo (s : State) (u : Nat) : State :=
  if s.chkBusy u then s
  else if s.chkOkCfg u then
    { s.chkBegin u 0 1 with chk := s.chk.set u ⟨0#32, s.fld (chkPage u) CHK_CFG_PART⟩ }
  else s.chkBegin u 3 0

/-- The end of a scan with its findings. -/
def State.chkFinish (s : State) (u : Nat) (r : ScanRes) (po : Nat) (ok : Bool) : State :=
  let k := chkPage u
  let s := { s with chk := s.chk.erase u }
  let s := s.setFld k CHK_STATUS_POISONED (min po 0xFFFF)
  let s := s.setFld k CHK_STATUS_BLOCKS_BAD (min r.bad 0xFFFF)
  let s := s.setFld k CHK_STATUS_MISMATCH (if r.bad == 0 then 0 else 1)
  let s := s.setFld k CHK_STATUS_ERROR (if ok then 0 else 1)
  let s := (s.setFld k CHK_STATUS_DONE 1).setFld k CHK_STATUS_BUSY 0
  s.setReg (k + 0x20) (BitVec.ofNat 64 r.crc)

/-- CHK_CTRL.ABORT (R471). -/
def State.chkAbort (s : State) (u : Nat) : State :=
  let k := chkPage u
  if s.chkBusy u then
    { ((s.setFld k CHK_STATUS_ERROR 0).setFld k CHK_STATUS_DONE 1).setFld k CHK_STATUS_BUSY 0 with chk := s.chk.erase u }
  else s

/-- CHK_GO (R471). -/
def execChkGo (u : Nat) (s : State) : Out := onUnit (chkOk u) (fun s => s.chkGo u) s

/-- CHK_ABORT (R471). -/
def execChkAbort (u : Nat) (s : State) : Out := onUnit (chkOk u) (fun s => s.chkAbort u) s

/-- CHK_SCAN_DONE (R338, R466, R467): the scan that runs reads its range and ends; a compute die's unit stands still with its
spine clock. -/
def execChkScanDone (u : Nat) (s : State) : Out :=
  onUnit (chkOk u) (fun s =>
    if !s.chkBusy u || (u < 384 && 2 ≤ s.therm.hold) then s
    else
      let k := chkPage u
      let q := s.fld k CHK_CFG_PART
      let mode := s.fld k CHK_CFG_MODE
      let i := s.fld k CHK_CFG_CTX
      let r := s.scan (s.chkAt q) q (s.fld k CHK_CFG_POLY) mode (s.fld k CHK_CFG_BLKLEN) (s.chkCtx u i)
        (BitVec.ofNat 64 (s.fld k CHK_ADDR_W)) (s.fld k CHK_LEN_LEN)
      let s := if mode == 0 then r.1 else r.1.setChkCtx u i r.2.1.ctx
      s.chkFinish u r.2.1 r.2.2.1 r.2.2.2.2) s

end Sys2Proof.Machine
end

