-- ==== Sys2Proof/Machine/Sha.lean ====
section
/-! DEFINITION. SHA-384 (FIPS 180-4), the hash of images, keys and request blocks (R437, R438, R446). -/

namespace Sys2Proof.Machine

/-- The integer k-th root of n below 2^bits, from its highest bit down. -/
def rootDown (k n bits r : Nat) : Nat :=
  match bits with
  | 0 => r
  | b + 1 => rootDown k n b (if (r + 2 ^ b) ^ k ≤ n then r + 2 ^ b else r)

/-- The first 64 bits of the fractional part of the k-th root of p, which is below 8. -/
def rootFrac (k p : Nat) : Nat := rootDown k (p * 2 ^ (64 * k)) 67 0 % 2 ^ 64

/-- The first eighty primes. -/
def shaPrimes : List Nat := (List.range 410).filter (fun n => 2 ≤ n && (List.range 21).all (fun d => d < 2 || n ≤ d || n % d != 0))

/-- The round constants: from the cube roots of the first eighty primes. -/
def shaK : List Nat := shaPrimes.map (rootFrac 3)

/-- The initial hash value of SHA-384: from the square roots of the ninth to the sixteenth prime. -/
def shaIV : List Nat := ((shaPrimes.drop 8).take 8).map (rootFrac 2)

def rotr (x : W64) (n : Nat) : W64 := x.rotateRight n

/-- The padded message as big-endian words. -/
def shaWords (l : List Byte) : List W64 :=
  let z := (240 - (l.length + 1) % 128) % 128
  let len := (List.range 16).map (fun i => BitVec.ofNat 8 (8 * l.length / 256 ^ (15 - i)))
  let all := l ++ [0x80#8] ++ List.replicate z 0#8 ++ len
  words (all.length / 8) all
where
  words (n : Nat) (l : List Byte) : List W64 :=
    match n with
    | 0 => []
    | k + 1 => BitVec.ofNat 64 ((l.take 8).foldl (fun a b => 256 * a + b.toNat) 0) :: words k (l.drop 8)

/-- The schedule, newest word first. -/
def shaSched (n : Nat) (w : List W64) : List W64 :=
  match n with
  | 0 => w
  | k + 1 =>
    let at_ := fun i => (w[i]?).getD 0#64
    let s0 := rotr (at_ 14) 1 ^^^ rotr (at_ 14) 8 ^^^ (at_ 14 >>> 7)
    let s1 := rotr (at_ 1) 19 ^^^ rotr (at_ 1) 61 ^^^ (at_ 1 >>> 6)
    shaSched k ((at_ 15 + s0 + at_ 6 + s1) :: w)

structure ShaState where
  a : W64
  b : W64
  c : W64
  d : W64
  e : W64
  f : W64
  g : W64
  h : W64

def shaRound (x : ShaState) (kw : Nat × W64) : ShaState :=
  let s1 := rotr x.e 14 ^^^ rotr x.e 18 ^^^ rotr x.e 41
  let ch := (x.e &&& x.f) ^^^ (~~~x.e &&& x.g)
  let t1 := x.h + s1 + ch + BitVec.ofNat 64 kw.1 + kw.2
  let s0 := rotr x.a 28 ^^^ rotr x.a 34 ^^^ rotr x.a 39
  let maj := (x.a &&& x.b) ^^^ (x.a &&& x.c) ^^^ (x.b &&& x.c)
  ⟨t1 + (s0 + maj), x.a, x.b, x.c, x.d + t1, x.e, x.f, x.g⟩

/-- One block of 16 words. -/
def shaBlock (x : ShaState) (w : List W64) : ShaState :=
  let y := (shaK.zip (shaSched 64 w.reverse).reverse).foldl shaRound x
  ⟨x.a + y.a, x.b + y.b, x.c + y.c, x.d + y.d, x.e + y.e, x.f + y.f, x.g + y.g, x.h + y.h⟩

def shaBlocks (n : Nat) (x : ShaState) (w : List W64) : ShaState :=
  match n with
  | 0 => x
  | k + 1 => shaBlocks k (shaBlock x (w.take 16)) (w.drop 16)

/-- SHA-384 of a list of bytes; the first byte of the digest is the lowest. -/
def sha384 (l : List Byte) : BitVec 384 :=
  let w := shaWords l
  let i := fun n => BitVec.ofNat 64 ((shaIV[n]?).getD 0)
  let x := shaBlocks (w.length / 16) ⟨i 0, i 1, i 2, i 3, i 4, i 5, i 6, i 7⟩ w
  let be := [x.a, x.b, x.c, x.d, x.e, x.f].flatMap (fun w => (toBytes w.toNat 8).reverse)
  BitVec.ofNat 384 (ofBytes be)

end Sys2Proof.Machine
end

