-- ==== Sys2Proof/Machine/Cmds.lean ====
section
/-! DEFINITION. How firmware takes a command packet: the checks of R291 in their order, handles (R292, R293), the reply
(R290) and the start of what completes later; and the queries, the bindings and the administrator role (R311–R313, R446,
R447). -/

namespace Sys2Proof.Machine

/-- Who sent a packet, by which ring, and the packet. -/
structure Ctx where
  p : Nat
  f : Nat
  ring : Nat
  q : CmdPkt
  /-- the partition bound and the role held when it was read, if the function has been detached since (R309) -/
  late : Option (Nat × Bool) := none

def Ctx.part (c : Ctx) : Nat := bits c.q.w0 22 16
def Ctx.cid (c : Ctx) : BitVec 16 := BitVec.ofNat 16 (bits c.q.w0 47 32)
def Ctx.after (c : Ctx) : Bool := bit c.q.w0 9
def Ctx.strict (c : Ctx) : Bool := bit c.q.w0 8

/-- Who may issue an opcode (R281, R298). -/
inductive Role where
  | any | panel | admin | bound | adminOrBound
  deriving DecidableEq, Repr

/-- An opcode: its value and role, the bits of P0 on that it uses, the checks of R291 that are its own, and what it
does when it is accepted, with the handle when it completes later: the state and VALUE. -/
structure Cmd where
  op : Nat
  query : Bool
  later : Bool
  role : Role
  masks : List Nat
  /-- part of step 3: zero, or the code it is rejected with -/
  token : Ctx → State → Nat
  /-- step 4 -/
  param : Ctx → State → Bool
  /-- step 5 -/
  quota : Ctx → State → Bool
  /-- step 7 -/
  ready : Ctx → State → Bool
  /-- VALUE of a rejection at step 7 -/
  rejVal : Ctx → State → Nat
  /-- the partition a command that completes later works on -/
  target : Ctx → State → Nat
  run : Ctx → State → W32 → State × Nat

/-- An opcode with no check of its own. -/
def Cmd.plain (op : Nat) (role : Role) (masks : List Nat) (run : Ctx → State → W32 → State × Nat) : Cmd :=
  { op := op, query := false, later := false, role := role, masks := masks, token := fun _ _ => 0,
    param := fun _ _ => true, quota := fun _ _ => true, ready := fun _ _ => true, rejVal := fun _ _ => 0,
    target := fun c _ => c.part, run := run }

def Ctx.isBound (c : Ctx) (s : State) : Bool :=
  match c.late with
  | none => s.boundPart c.p c.f == some c.part
  | some b => b.1 == c.part && b.1 < 64

def Ctx.isAdmin (c : Ctx) (s : State) : Bool :=
  match c.late with
  | none => s.panel.admin == some (c.p, c.f)
  | some b => b.2

/-- Step 3 (R281, R291, R298). -/
def Role.ok (r : Role) (c : Ctx) (s : State) : Bool :=
  match r with
  | .any | .panel => c.part == 127 || c.isBound s
  | .admin => (c.part == 127 || c.isBound s) && c.isAdmin s
  | .bound => c.isBound s
  | .adminOrBound => c.isBound s || c.isAdmin s

/-- The PART field fits the role (R281, R315). -/
def Role.partOk (r : Role) (c : Ctx) : Bool :=
  match r with
  | .any => true
  | .panel | .admin => c.part == 127
  | .bound | .adminOrBound => c.part < 64 || c.part == 127

/-- Reserved bits of word 0, and bits of parameters that the opcode does not use, are zero (R289). -/
def Cmd.reservedOk (m : Cmd) (c : Ctx) : Bool :=
  bits c.q.w0 63 48 == 0 && bits c.q.w0 31 23 == 0 && bits c.q.w0 15 10 == 0
    && ([c.q.p0, c.q.p1, c.q.p2, c.q.p3, c.q.p4, c.q.p5, c.q.p6].zip (m.masks ++ [0, 0, 0, 0, 0, 0, 0])).all
      (fun e => Nat.land e.1.toNat (2 ^ 64 - 1 - e.2) == 0)

/-- The handle comes from the partition's pool: its bound function issues the command for it (R292). -/
def Ctx.pool (c : Ctx) (s : State) : Bool := c.part < 64 && c.isBound s

/-- The lowest free slot of the pool (R292). -/
def State.freeHandle (s : State) (pool : Bool) : Option Nat :=
  ((List.range 4096).drop (if pool then 0 else 4032)).take (if pool then 4032 else 64)
    |>.find? (fun i => !s.handles.any (fun h => h.h.toNat / 2 ^ 20 == i))

/-- The handle that slot i gets next (R292). -/
def State.nextHandle (s : State) (i : Nat) : W32 := BitVec.ofNat 32 (i * 2 ^ 20 + s.panel.gens.getD i 0 % 0xFFFFF + 1)

/-- The checks of R291: zero, or the code of the first that fails. -/
def Cmd.check (m : Cmd) (c : Ctx) (s : State) : Nat :=
  if !s.boot.ready && !m.query && !(m.op == 0x40 && s.boot.held390) then stRejState
  else if !m.role.ok c s then stRejRole
  else if m.token c s != 0 then m.token c s
  else if !(m.reservedOk c && m.role.partOk c && m.param c s) then stRejParam
  else if !m.quota c s || (m.later && c.pool s && (s.prt c.part).handleQuota ≤ (s.liveHandles c.part).length) then
    stRejQuota
  else if m.later && (s.freeHandle (c.pool s)).isNone then stRejNoHandle
  else if !m.ready c s then stRejState
  else stOk

/-- The reply to a command (R290), discarded where the function has been detached since (R309). -/
def Ctx.answer (c : Ctx) (s : State) (status : Nat) (h : W32) (later : Bool) (value : Nat) : State :=
  if c.late.isSome then s else s.reply c.p c.f status h c.cid later (BitVec.ofNat 64 value)

/-- Accept a command that completes later: its handle, its reply, and its place among the waiting commands (R289,
R291–R293). -/
def Cmd.accept (m : Cmd) (c : Ctx) (s : State) : State :=
  let i := (s.freeHandle (c.pool s)).getD 0
  let h := s.nextHandle i
  let t := m.target c s
  let after := if c.after then
      ((s.handles.filter (fun x => x.port == c.p && x.func == c.f && x.ring == c.ring && x.state != .complete)).map (·.h))
    else []
  let s := { s with panel := { s.panel with gens := s.panel.gens.set i (h.toNat % 2 ^ 20) } }
  let r := m.run c s h
  let s := c.answer r.1 stOk h true r.2
  let x : Handle := {
    h := h, port := c.p, func := c.f, ring := c.ring, part := c.part, target := t, opcode := m.op, cid := c.cid,
    pkt := c.q, strict := c.strict, after := after, state := .waiting, status := 0, due := false, deferred := false, since := s.power.aon, est := 0,
    charged := 0, frac := 0, cnt := [], warned := 0, promoted := 0, epoch := 0, rolledBack := false, locked := false, done := 0,
    hostHeld := false, images := [], startMs := 0, commitMs := 0 }
  let s := { s with handles := s.handles ++ [x] }
  s.startWaiting t

/-- Check a command and answer it (R290, R291). -/
def Cmd.go (m : Cmd) (c : Ctx) (s : State) : State :=
  let st := m.check c s
  if st != stOk then
    c.answer s st 0#32 false (if st == stRejState then m.rejVal c s else 0)
  else if m.later then m.accept c s
  else
    let r := m.run c s 0#32
    c.answer r.1 stOk 0#32 false r.2

/-- The reply ring can take a reply: a command waits for that, so that no reply is dropped (R286). -/
def State.canReply (s : State) (p f : Nat) : Bool := s.flag (barPage p f) RQ_CFG_ENABLE && !s.rqFull p f

/-- What a command read before its function was detached has bound or granted ends at once (R309). -/
def State.undoLate (s : State) (c : Ctx) : State :=
  if c.late.isNone then s
  else
    let s := if s.panel.admin == some (c.p, c.f) then s.setAdmin none else s
    if (s.boundPart c.p c.f).isSome then s.detach c.p c.f else s

/-- A command row: the packet is the next that the function's serving controller has taken (R285). -/
def hostTake (sel : CmdPkt → Bool) (go : Ctx → State → State) (p f ring : Nat) (q : CmdPkt) (s : State) : Out :=
  onUnit (s.hasFunc p f && ringOk ring) (fun s =>
    let x := s.func p f
    match x.inbox with
    | [] => s
    | e :: l =>
      if e.ring == ring && e.pkt == q && sel q && (s.server p).isSome && (e.late.isSome || s.canReply p f) then
        let c : Ctx := ⟨p, f, ring, q, e.late⟩
        (go c (s.setFunc p f { x with inbox := l })).undoLate c
      else s) s

def pktOp (q : CmdPkt) : Nat := bits q.w0 7 0

def hostRow (m : Cmd) (p f ring : Nat) (q : CmdPkt) (s : State) : Out :=
  hostTake (fun q => pktOp q == m.op) m.go p f ring q s

/-- A row for the packets of an opcode whose MODE lies in P0 [1:0]. -/
def hostMode (m : Cmd) (modes : List Nat) (p f ring : Nat) (q : CmdPkt) (s : State) : Out :=
  hostTake (fun q => pktOp q == m.op && modes.contains (bits q.p0 1 0)) m.go p f ring q s

/-- The partition accepts commands: ACTIVE or PAUSED (R317). -/
def State.partUp (s : State) (q : Nat) : Bool := (s.prt q).state == .active || (s.prt q).state == .paused

def ones64 : Nat := 2 ^ 64 - 1

/-! Queries. -/

def cmdNop : Cmd := { Cmd.plain 0x00 .any [] (fun _ s _ => (s, 0)) with query := true }

def cmdQueryCap : Cmd := { Cmd.plain 0x01 .any [ones64] (fun c s _ =>
    (s.hostWrite c.p c.q.p0.toNat 64 s.capRecord, s.panel.recordGen.toNat)) with
  query := true, param := fun c _ => c.q.p0.toNat % 64 == 0 }

/-- The state of R316 as a number. -/
def PState.code : PState → Nat
  | .free => 0
  | .creating => 1
  | .active => 2
  | .paused => 3
  | .destroying => 4

/-- Commands of partition q deferred by the planner (R330, R333). -/
def State.deferred (s : State) (q : Nat) : Nat :=
  (s.handles.filter (fun h => h.part == q && h.deferred && h.state == .waiting)).length

/-- The partition status block (R333): its energy figures are those of the last completed tick. -/
def State.partBlock (s : State) (q : Nat) : Nat :=
  let x := s.prt q
  (x.state.code * 2 ^ 56 + x.overBits % 16 * 2 ^ 52 + b2n x.orphaned * 2 ^ 51 + b2n x.bound * 2 ^ 50
    + b2n x.resize.isSome * 2 ^ 49 + q * 2 ^ 42 + x.weight % 256 * 2 ^ 34 + x.duty % 256 * 2 ^ 26
    + x.ncores % 2 ^ 13 * 2 ^ 13 + (s.diesOf q).length % 512)
  + (x.hbmQuota * 2 ^ 52 + s.alloc q * 2 ^ 40 + x.handleQuota * 2 ^ 28 + (s.liveHandles q).length * 2 ^ 16
    + min 0xFFFF (s.deferred q)) * 2 ^ 64
  + x.budget * 2 ^ 128
  + (x.window * 2 ^ 40 + x.left * 2 ^ 16) * 2 ^ 192
  + (x.figures.w0.toNat + x.figures.w1.toNat * 2 ^ 64 + x.figures.w2.toNat * 2 ^ 128 + x.figures.w3.toNat * 2 ^ 192) * 2 ^ 256

def cmdQueryPart : Cmd := { Cmd.plain 0x02 .adminOrBound [ones64] (fun c s _ =>
    (s.hostWrite c.p c.q.p0.toNat 64 (s.partBlock c.part), 0)) with
  query := true, param := fun c _ => c.q.p0.toNat % 64 == 0 && c.part < 64 }

/-- The handle P0 names, when it is live for the issuer (R293): of its partition, and of the issuer itself when its
slot is of the panel pool. -/
def Ctx.named (c : Ctx) (s : State) : Option Handle :=
  (s.handle (c.q.p0.setWidth 32)).filter (fun h =>
    h.part == c.part && (h.h.toNat / 2 ^ 20 < 4032 || (h.port == c.p && h.func == c.f)))

/-- A handle's state in R294. -/
def State.handleState (s : State) (h : Handle) : Nat :=
  match h.state with
  | .waiting => 0
  | .running => if (s.prt h.target).state == .paused then 2 else 1
  | .complete => 3

def cmdQueryHandle : Cmd := { Cmd.plain 0x03 .adminOrBound [0xFFFFFFFF] (fun c s _ =>
    match c.named s with
    | none => (s, 0)
    | some h => (s, s.handleState h * 2 ^ 56 + h.opcode * 2 ^ 48 + h.cid.toNat * 2 ^ 32
        + min 0xFFFFFFFF ((s.power.aon - h.since) / 25000))) with
  query := true, param := fun c s => (c.named s).isSome }

def cmdQueryOffered : Cmd := { Cmd.plain 0x04 .any [] (fun c s _ => (s, s.offered c.p)) with query := true }

/-- NOP (R298). -/
def execHostNop (p f ring : Nat) (q : CmdPkt) (s : State) : Out := hostRow cmdNop p f ring q s

/-- QUERY_CAP (R298). -/
def execQueryCap (p f ring : Nat) (q : CmdPkt) (s : State) : Out := hostRow cmdQueryCap p f ring q s

/-- QUERY_PART (R333). -/
def execQueryPart (p f ring : Nat) (q : CmdPkt) (s : State) : Out := hostRow cmdQueryPart p f ring q s

/-- QUERY_HANDLE (R294). -/
def execQueryHandle (p f ring : Nat) (q : CmdPkt) (s : State) : Out := hostRow cmdQueryHandle p f ring q s

/-- QUERY_OFFERED (R298). -/
def execQueryOffered (p f ring : Nat) (q : CmdPkt) (s : State) : Out := hostRow cmdQueryOffered p f ring q s

/-- The opcodes of R298. -/
def opcodes : List Nat :=
  [0x00, 0x01, 0x02, 0x03, 0x04, 0x08, 0x09, 0x0A, 0x0B, 0x10, 0x11, 0x12, 0x13, 0x14, 0x15, 0x16, 0x17, 0x20, 0x21,
   0x22, 0x23, 0x24, 0x25, 0x26, 0x30, 0x31, 0x32, 0x40, 0x41, 0x42, 0x43]

/-- A reserved opcode is rejected with REJ_OPCODE (R291). -/
def execHostReservedOpcode (p f ring : Nat) (q : CmdPkt) (s : State) : Out :=
  hostTake (fun q => !opcodes.contains (pktOp q))
    (fun c s => c.answer s stRejOpcode 0#32 false 0) p f ring q s

/-! Binding, R311. -/

/-- BIND names a partition that is offered, and its token matches (R291, R311). -/
def bindToken (c : Ctx) (s : State) : Nat :=
  let q := bits c.q.p0 6 0
  if !(q < 64 && (s.prt q).live && (s.prt q).hport == c.p) then stRejParam
  else if (s.prt q).token != c.q.p1 then stRejRole else 0

/-- Live handles of partition q in slot order. -/
def State.liveSorted (s : State) (q : Nat) : List Handle :=
  (s.liveHandles q).mergeSort (fun a b => a.h.toNat ≤ b.h.toNat)

/-- The binding of partition q to a function, with REBOUND, LIVE_HANDLE and what was held (R311). -/
def State.bindTo (s : State) (q p f : Nat) : State :=
  let x := s.prt q
  let live := s.liveSorted q
  let s := s.setPrt q { x with hport := p, hfunc := f, bound := true, orphaned := false, held := [] }
  let s := s.writeSetsNow q
  let s := s.noticeFn p f noteRebound q live.length (x.held.filter (fun e => !e.notice)).length 0
  let s := live.foldl (fun s h => s.noticeFn p f noteLive q h.h.toNat (h.opcode * 2 ^ 16 + h.cid.toNat)
    (s.handleState h)) s
  x.held.foldl (fun s e => s.toCq p f e) s

def cmdBind : Cmd := { Cmd.plain 0x08 .panel [0x7F, ones64] (fun c s _ =>
    let q := bits c.q.p0 6 0
    let n := (s.liveHandles q).length
    ((s.bindTo q c.p c.f).settle, n)) with
  token := bindToken
  ready := fun c s =>
    let q := bits c.q.p0 6 0
    s.partUp q && !(s.prt q).bound && (s.boundPart c.p c.f).isNone }

/-- UNBIND: only the bound function (R298). -/
def cmdUnbind : Cmd := { Cmd.plain 0x09 .panel [0x7F] (fun c s _ =>
    (s.updPrt (bits c.q.p0 6 0) (fun x => { x with bound := false }), 0)) with
  token := fun c s => if s.boundPart c.p c.f == some (bits c.q.p0 6 0) then 0 else stRejRole
  ready := fun c s => s.partUp (bits c.q.p0 6 0) && (s.liveHandles (bits c.q.p0 6 0)).isEmpty }

/-- BIND (R311). -/
def execBind (p f ring : Nat) (q : CmdPkt) (s : State) : Out := hostRow cmdBind p f ring q s

/-- UNBIND (R298). -/
def execUnbind (p f ring : Nat) (q : CmdPkt) (s : State) : Out := hostRow cmdUnbind p f ring q s

/-! The administrator role, R312, R313, R446, R447. -/

/-- Bytes [a, a+n) of a list. -/
def sliceBytes (l : List Byte) (a n : Nat) : List Byte := (l.drop a).take n

/-- The 48 bytes of a SHA-384 digest, as they lie in memory. -/
def digestBytes (d : BitVec 384) : List Byte := toBytes d.toNat 48

/-- The bytes of a request block or debug token (R446). -/
def State.reqBlock (s : State) (p : Nat) (a : W64) : List Byte := toBytes (s.hostRead p a.toNat 5421) 5421

def blkWord (l : List Byte) (i : Nat) : W64 := BitVec.ofNat 64 (ofBytes (sliceBytes l (8 * i) 8))
def blkEdHash (l : List Byte) : BitVec 384 := sha384 (sliceBytes l 0x40 32)
def blkMlHash (l : List Byte) : BitVec 384 := sha384 (sliceBytes l 0x60 1952)

/-- Both signatures over the SHA-384 of bytes 0x000–0x7FF verify. -/
def blkSigned (l : List Byte) : Bool :=
  let d := sha384 (sliceBytes l 0 0x800)
  Config.sigVerify 1 (blkEdHash l) d (ofBytes (sliceBytes l 0x800 64))
    && Config.sigVerify 2 (blkMlHash l) d (ofBytes (sliceBytes l 0x840 3309))

/-- A nonce is current: issued within the last 10 min and not used. -/
def nonceOk (o : Option (W64 × Nat)) (now : Nat) (v : W64) : Bool :=
  match o with
  | some e => e.1 == v && now ≤ e.2 + 600000
  | none => false

/-- The debug state of R441: locked, or unlocked with its scopes. -/
def Boot.debugState (b : Boot) : Nat := if b.unlocked then 8 + b.scope else 0

/-- The Ed25519 Alias public key of the controller that serves port p. -/
def State.aliasOf (s : State) (p : Nat) : W256 :=
  let c := s.boot.ctl ((s.server p).getD 0)
  Config.aliasKey c.digest c.svn c.aliasFuses c.aliasDebug

/-- The checks of R447 that requests and enrolments share: the nonce, the function named, BIND and the signatures. -/
def State.requestOk (s : State) (c : Ctx) : Bool :=
  let l := s.reqBlock c.p c.q.p1
  blkWord l 0 == BitVec.ofNat 64 (2 ^ 56 + c.f * 2 ^ 32 + c.p * 2 ^ 30)
    && nonceOk (s.func c.p c.f).nonce s.ms (blkWord l 1)
    && sliceBytes l 0x10 48 == digestBytes (sha384 (toBytes (s.aliasOf c.p).toNat 32))
    && blkSigned l

/-- A fresh nonce for a function (R446). -/
def State.issueNonce (s : State) (p f : Nat) : State × Nat :=
  let v := Config.freeW64 s.free
  ({ s.setFunc p f { s.func p f with nonce := some (v, s.ms) } with free := s.free + 1 }, v.toNat)

def State.useNonce (s : State) (p f : Nat) : State := s.setFunc p f { s.func p f with nonce := none }

def adminMasks : List Nat := [3, ones64, 0xFFFF]

def cmdAdminChallenge : Cmd := Cmd.plain 0x0A .panel adminMasks (fun c s _ => s.issueNonce c.p c.f)

/-- MODE 1, and the value 3 that no mode has. -/
def cmdAdminRequest : Cmd := { Cmd.plain 0x0A .panel adminMasks (fun c s _ =>
    ((s.useNonce c.p c.f).setAdmin (some (c.p, c.f)), 0)) with
  token := fun c s =>
    if bits c.q.p0 1 0 == 3 || bits c.q.p2 15 0 != 5421 then 0
    else
      let l := s.reqBlock c.p c.q.p1
      if s.panel.admin.isNone && s.requestOk c && s.boot.opKeys == some (blkEdHash l, blkMlHash l) then 0 else stRejRole
  param := fun c _ => bits c.q.p0 1 0 == 1 && bits c.q.p2 15 0 == 5421 }

def cmdAdminEnrol : Cmd := { Cmd.plain 0x0A .panel adminMasks (fun c s _ =>
    let l := s.reqBlock c.p c.q.p1
    let s := s.useNonce c.p c.f
    ({ s with boot := { s.boot with opKeys := some (blkEdHash l, blkMlHash l) } }, 0)) with
  token := fun c s =>
    if bits c.q.p2 15 0 != 5421 then 0
    else if c.isAdmin s && s.panel.adminByFacility && s.requestOk c then 0 else stRejRole
  param := fun c _ => bits c.q.p2 15 0 == 5421 }

def cmdAdminRelease : Cmd := { Cmd.plain 0x0B .panel [] (fun _ s _ => (s.setAdmin none, 0)) with
  token := fun c s => if c.isAdmin s then 0 else stRejRole }

/-- ADMIN_REQUEST, MODE 0 (R446). -/
def execAdminChallenge (p f ring : Nat) (q : CmdPkt) (s : State) : Out := hostMode cmdAdminChallenge [0] p f ring q s

/-- ADMIN_REQUEST, MODE 1 (R447). -/
def execAdminRequest (p f ring : Nat) (q : CmdPkt) (s : State) : Out := hostMode cmdAdminRequest [1, 3] p f ring q s

/-- ADMIN_REQUEST, MODE 2 (R447). -/
def execAdminEnrol (p f ring : Nat) (q : CmdPkt) (s : State) : Out := hostMode cmdAdminEnrol [2] p f ring q s

/-- ADMIN_RELEASE (R313). -/
def execAdminRelease (p f ring : Nat) (q : CmdPkt) (s : State) : Out := hostRow cmdAdminRelease p f ring q s

end Sys2Proof.Machine
end

