-- ==== Sys2Proof/Machine/PartCmds.lean ====
section
/-! DEFINITION. The commands that make, change, pause and end partitions, give them memory and take forecasts
(R318–R324, R305, R374). -/

namespace Sys2Proof.Machine

/-- The range of SET_QUOTA's and PART_CREATE's figures (R315). -/
def handleQuotaOk (n : Nat) : Bool := 1 ≤ n && n ≤ 4032
def windowOk (n : Nat) : Bool := 10 ≤ n && n ≤ 10000

/-! PART_CREATE, R318, R319. -/

/-- The identifier PART_CREATE takes: the one named, or the lowest FREE. -/
def createId (c : Ctx) (s : State) : Option Nat :=
  let q := bits c.q.p0 6 0
  if q == 127 then partIds.find? (fun q => !(s.prt q).live) else some q

def createPlace (c : Ctx) (s : State) : Option (List (Nat × Nat)) :=
  s.place (bits c.q.p1 12 0) (bit c.q.p1 16) ((createId c s).getD 64)

/-- The partition as PART_CREATE leaves it at acceptance (R318, R319). -/
def createPart (c : Ctx) (cores : List (Nat × Nat)) : Partition :=
  { Partition.reset with
    state := .creating, hport := bits c.q.p0 15 14, hfunc := bits c.q.p0 13 8, bound := true, token := c.q.p6,
    cores := (List.range cores.length).zip cores, ncores := cores.length, hbmQuota := bits c.q.p2 11 0,
    handleQuota := bits c.q.p3 11 0, weight := bits c.q.p3 23 16, budget := c.q.p4.toNat, beff := c.q.p4.toNat,
    budgetNext := c.q.p4.toNat, windowNext := bits c.q.p5 23 0, window := bits c.q.p5 23 0, left := bits c.q.p5 23 0 }

def cmdPartCreate : Cmd := { Cmd.plain 0x10 .admin
    [0xFF7F, 0x11FFF, 0xFFF, 0xFF0FFF, ones64, 0xFFFFFF, ones64] (fun c s _ =>
      let q := (createId c s).getD 0
      (s.setPrt q (createPart c ((createPlace c s).getD [])), q)) with
  later := true
  param := fun c s =>
    let q := bits c.q.p0 6 0
    (q < 64 || q == 127) && s.part.hasPort (bits c.q.p0 15 14) && bits c.q.p1 12 0 ≤ 4928 && bits c.q.p2 11 0 ≤ 3072
      && handleQuotaOk (bits c.q.p3 11 0) && c.q.p4 != 0#64 && windowOk (bits c.q.p5 23 0)
  quota := fun c s =>
    match createId c s with
    | none => false
    | some q => bits c.q.p2 11 0 ≤ s.freeUnits q && ((s.prt q).live || (createPlace c s).isSome)
  ready := fun c s =>
    match createId c s with
    | none => false
    | some q => !(s.prt q).live && (s.port (bits c.q.p0 15 14)).up
        && (s.boundPart (bits c.q.p0 15 14) (bits c.q.p0 13 8)).isNone
  target := fun c s => (createId c s).getD 127 }

/-- PART_CREATE (R318, R319). -/
def execPartCreate (p f ring : Nat) (q : CmdPkt) (s : State) : Out := hostRow cmdPartCreate p f ring q s

/-! PART_RESIZE, R322. -/

/-- The cores a growth of partition q to n places. -/
def State.growth (s : State) (q n : Nat) : Option (List (Nat × Nat)) :=
  if n ≤ (s.prt q).ncores then some [] else s.place (n - (s.prt q).ncores) false q

def cmdPartResize : Cmd := { Cmd.plain 0x11 .admin [0x7F, 0x1FFF, 0xFFF] (fun c s h =>
      let q := bits c.q.p0 6 0
      let n := bits c.q.p1 12 0
      let l := (s.growth q n).getD []
      (s.updPrt q (fun x => { x with
        cores := x.cores ++ ((List.range l.length).map (fun i => x.ncores + i)).zip l
        resize := if n == x.ncores then none else some (n, h) }), 0)) with
  later := true
  param := fun c _ => bits c.q.p0 6 0 < 64 && bits c.q.p1 12 0 ≤ 4928 && bits c.q.p2 11 0 ≤ 3072
  quota := fun c s =>
    let q := bits c.q.p0 6 0
    let n := bits c.q.p2 11 0
    (n ≤ (s.prt q).hbmQuota || n ≤ s.freeUnits q)
      && (!s.partUp q || (s.prt q).resize.isSome || (s.growth q (bits c.q.p1 12 0)).isSome)
  ready := fun c s => s.partUp (bits c.q.p0 6 0) && (s.prt (bits c.q.p0 6 0)).resize.isNone
  target := fun c _ => bits c.q.p0 6 0 }

/-- PART_RESIZE (R322). -/
def execPartResize (p f ring : Nat) (q : CmdPkt) (s : State) : Out := hostRow cmdPartResize p f ring q s

/-! PART_DESTROY, R316, R317. -/

/-- A PART_DESTROY of partition q has been accepted and is not complete. -/
def State.destroyWaits (s : State) (q : Nat) : Bool :=
  s.handles.any (fun h => h.opcode == 0x12 && h.target == q && h.state != .complete)

def cmdPartDestroy : Cmd := { Cmd.plain 0x12 .adminOrBound [] (fun _ s _ => (s, 0)) with
  later := true
  param := fun c _ => c.part < 64
  ready := fun c s => (s.partUp c.part || (s.prt c.part).state == .creating) && !s.destroyWaits c.part }

/-- PART_DESTROY (R316, R317). -/
def execPartDestroy (p f ring : Nat) (q : CmdPkt) (s : State) : Out := hostRow cmdPartDestroy p f ring q s

/-! SET_QUOTA and SET_ORPHAN, R324, R325, R332, R310. -/

def quotaSel (c : Ctx) (i : Nat) : Bool := bit c.q.p0 (8 + i)

/-- What SET_QUOTA applies (R324, R325, R332). -/
def State.setQuotas (s : State) (q : Nat) (c : Ctx) : State :=
  let s := if quotaSel c 0 then
      let s := s.updPrt q (fun x => { x with handleQuota := bits c.q.p1 11 0 })
      if bits c.q.p1 11 0 < (s.liveHandles q).length then s.setOver q 2 2 else s.overClear q
    else s
  let s := if quotaSel c 1 then (s.updPrt q (fun x => { x with weight := bits c.q.p1 23 16 })).writeShares q else s
  let s := if quotaSel c 2 then
      let s := s.updPrt q (fun x => { x with budgetNext := c.q.p2.toNat })
      if c.q.p2.toNat < (s.prt q).spent then s.setOver q 4 4 else s.setOver q 4 0
    else s
  let s := if quotaSel c 3 then s.updPrt q (fun x => { x with windowNext := bits c.q.p3 23 0 }) else s
  if quotaSel c 4 then s.setHbmQuota q (bits c.q.p1 43 32) else s

def cmdSetQuota : Cmd := { Cmd.plain 0x13 .admin [0x1F7F, 0xFFF00FF0FFF, ones64, 0xFFFFFF] (fun c s _ =>
    (s.setQuotas (bits c.q.p0 6 0) c, 0)) with
  param := fun c _ => bits c.q.p0 6 0 < 64
    && (!quotaSel c 0 || handleQuotaOk (bits c.q.p1 11 0)) && (!quotaSel c 2 || c.q.p2 != 0#64)
    && (!quotaSel c 3 || windowOk (bits c.q.p3 23 0)) && (!quotaSel c 4 || bits c.q.p1 43 32 ≤ 3072)
  quota := fun c s =>
    let n := bits c.q.p1 43 32
    !quotaSel c 4 || n ≤ (s.prt (bits c.q.p0 6 0)).hbmQuota || n ≤ s.freeUnits (bits c.q.p0 6 0)
  ready := fun c s => s.partUp (bits c.q.p0 6 0) }

/-- SET_QUOTA (R324, R332). -/
def execSetQuota (p f ring : Nat) (q : CmdPkt) (s : State) : Out := hostRow cmdSetQuota p f ring q s

def cmdSetOrphan : Cmd := { Cmd.plain 0x14 .adminOrBound [0x300, 0xFFFFFFFF, ones64] (fun c s _ =>
    (s.updPrt c.part (fun x => { x with policy := bit c.q.p0 8, grace := bits c.q.p1 31 0,
                                        token := if bit c.q.p0 9 then c.q.p2 else x.token }), 0)) with
  param := fun c _ => c.part < 64 && bits c.q.p1 31 0 ≤ 3600000 && (bit c.q.p0 9 || c.q.p2 == 0#64)
  ready := fun c s => s.partUp c.part }

/-- SET_ORPHAN (R310). -/
def execSetOrphan (p f ring : Nat) (q : CmdPkt) (s : State) : Out := hostRow cmdSetOrphan p f ring q s

/-! PAUSE and RESUME, R305. -/

def cmdPause : Cmd := { Cmd.plain 0x15 .adminOrBound [] (fun _ s _ => (s, 0)) with
  later := true
  param := fun c _ => c.part < 64
  ready := fun c s => s.partUp c.part }

/-- PAUSE (R305). -/
def execPause (p f ring : Nat) (q : CmdPkt) (s : State) : Out := hostRow cmdPause p f ring q s

/-- The partition-domain error of partition q is still being handled (R385). -/
def State.domainOpen (s : State) (q : Nat) : Bool :=
  (match s.err.handling with
   | some h => h.domain == 3 && h.item.part == q
   | none => false)
  || s.err.queue.any (fun e => e.domain == 3 && e.part == q)

/-- What RESUME ends: a host pause, an orphan's pause once a function is bound, and the pause of a partition-domain
error that has been handled (R305, R316). -/
def State.resumePart (s : State) (q : Nat) : State :=
  let s := s.unpausePart q .host true
  let s := if (s.prt q).bound then s.unpausePart q .orphan true else s
  let s := if s.domainOpen q then s else s.unpausePart q .domain true
  s.unpausePart q .stateLost true

def cmdResume : Cmd := { Cmd.plain 0x16 .adminOrBound [] (fun c s _ => ((s.resumePart c.part).startAll, 0)) with
  param := fun c _ => c.part < 64
  ready := fun c s => s.partUp c.part }

/-- RESUME (R305). -/
def execResume (p f ring : Nat) (q : CmdPkt) (s : State) : Out := hostRow cmdResume p f ring q s

/-! EPHEMERIS, R374. -/

/-- The entries of a forecast of n bytes: (offset in ms, W); none where its rules are broken. -/
def foreParse (v n : Nat) : Option (List (Nat × Nat)) :=
  let w := fun i => BitVec.ofNat 64 (v / 2 ^ (64 * i))
  let cnt := bits (w 0) 55 48
  let l := (List.range cnt).map (fun i => (bits (w (2 + i)) 63 48, bits (w (2 + i)) 31 0))
  let zero := (List.range cnt).all (fun i => bits (w (2 + i)) 47 32 == 0)
  let up := (l.zip (l.drop 1)).all (fun e => e.1.1 < e.2.1)
  if n == 16 + 8 * cnt && 1 ≤ cnt && cnt ≤ 62 && bits (w 0) 63 56 == 1 && bits (w 0) 47 0 == 0 && w 1 == 0#64
    && zero && up && l.all (fun e => e.1 ≤ 60000) then some l else none

def foreOf (c : Ctx) (s : State) : Option (List (Nat × Nat)) :=
  let n := bits c.q.p1 15 0
  if 24 ≤ n && n ≤ 512 then foreParse (s.hostRead c.p c.q.p0.toNat n) n else none

def cmdEphemeris : Cmd := { Cmd.plain 0x17 .bound [ones64, 0xFFFF] (fun c s _ =>
    (s.updPrt c.part (fun x => { x with forecast := (foreOf c s).getD [], forecastAt := s.ms }), 0)) with
  param := fun c s => (foreOf c s).isSome
  ready := fun c s => s.partUp c.part }

/-- EPHEMERIS (R374). -/
def execEphemeris (p f ring : Nat) (q : CmdPkt) (s : State) : Out := hostRow cmdEphemeris p f ring q s

/-! Memory, R323. -/

/-- Partition-relative units of partition q that are allocated, or freed and not yet released. -/
def State.usedUnits (s : State) (q : Nat) : List Nat :=
  (s.prt q).units.map (fun e => e.1)
    ++ (s.handles.filter (fun h => h.opcode == 0x21 && h.target == q && h.state == .running)).flatMap
        (fun h => h.cnt.map (fun e => e.1))

/-- Lengths of the runs of unallocated units that begin at each unit, from unit 3,071 down. -/
def runLens (used : List Nat) (n : Nat) : List Nat :=
  match n with
  | 0 => []
  | k + 1 =>
    let u := 3071 - k
    match runLens used k with
    | [] => [if used.contains u then 0 else 1]
    | m :: r => (if used.contains u then 0 else m + 1) :: m :: r

/-- The lowest unit from which n units are unallocated, and the longest run (R323). -/
def State.freeRun (s : State) (q n : Nat) : Option Nat × Nat :=
  let l := runLens (s.usedUnits q) 3072
  (if n == 0 then some 0 else l.findIdx? (fun m => n ≤ m), l.foldl max 0)

/-- MEM_ALLOC's effect: n units from u on, mapped to the lowest free physical units (R323). -/
def State.memAlloc (s : State) (q u n : Nat) : State :=
  let free := ((List.range s.hbmGib).filter (fun p => (s.hbm.owner.find p).isNone)).take n
  let l : List (Nat × Nat) := ((List.range n).map (fun i => u + i)).zip free
  let s := { s with hbm := { s.hbm with owner := l.foldl (fun (t : Tab Nat) (e : Nat × Nat) => t.set e.2 q) s.hbm.owner } }
  let s := s.updPrt q (fun x => { x with units := l.foldl (fun (t : Tab Nat) (e : Nat × Nat) => t.set e.1 e.2) x.units })
  let s := s.writeSets q
  if s.runLive q then s else s.cacheDropPart q

def cmdMemAlloc : Cmd := { Cmd.plain 0x20 .bound [0xFFF] (fun c s _ =>
    let n := bits c.q.p0 11 0
    let u := ((s.freeRun c.part n).1).getD 0
    (s.memAlloc c.part u n, u)) with
  quota := fun c s => s.alloc c.part + bits c.q.p0 11 0 ≤ (s.prt c.part).hbmQuota
  ready := fun c s => s.partUp c.part && (s.freeRun c.part (bits c.q.p0 11 0)).1.isSome
  rejVal := fun c s => if s.partUp c.part then (s.freeRun c.part 1).2 else 0 }

/-- MEM_ALLOC (R323). -/
def execMemAlloc (p f ring : Nat) (q : CmdPkt) (s : State) : Out := hostRow cmdMemAlloc p f ring q s

def cmdMemFree : Cmd := { Cmd.plain 0x21 .bound [0xFFF0FFF] (fun _ s _ => (s, 0)) with
  later := true
  param := fun c s =>
    let u := bits c.q.p0 11 0
    let n := bits c.q.p0 27 16
    u + n ≤ 3072 && ((s.prt c.part).units.range u (u + n)).length == n
  ready := fun c s => s.partUp c.part }

/-- MEM_FREE (R323). -/
def execMemFree (p f ring : Nat) (q : CmdPkt) (s : State) : Out := hostRow cmdMemFree p f ring q s

/-! What ends these commands. -/

/-- PART_CREATE_DONE (R316): sets, slots and shares are written, the record reads OK, and the partition is ACTIVE, or
PAUSED while a cause stands, or it goes on to its destruction. -/
def State.createDone (s : State) (q : Nat) : State :=
  let s := s.seatAll q
  let x := s.prt q
  let s := s.setPrt q { x with state := if x.causes.isEmpty then .active else .paused }
  let s := match s.handles.find? (fun h => h.opcode == 0x10 && h.target == q && h.state != .complete) with
    | some h => s.complete h.h stOk
    | none => s
  let s := if x.destroyAfter then
      let keep := (s.handles.find? (fun h => h.opcode == 0x12 && h.target == q && h.state != .complete)).map (·.h)
      s.destroyBegin q (keep.getD 0#32) keep.isNone
    else s
  s.startAll

def execPartCreateDone (part : Nat) (s : State) : Out :=
  onUnit (partOk part) (fun s => if (s.prt part).state == .creating then s.createDone part else s) s

/-- Zero an HBM unit with its poison (R450). -/
def State.zeroUnit (s : State) (u : Nat) : State :=
  iter (2 ^ 30 / 256) (fun i s =>
    let k := s.sliceOf (u * 2 ^ 30 + 256 * i)
    s.zeroRange (hbmBase k.1 + k.2) (hbmBase k.1 + k.2 + 256)) s

/-- Zeroisation is complete (R450): cores, units and mirrors are zero, cache lines and window sets gone, owners
cleared; handles, held records, forecast and histories are discarded, and the identifier is FREE. -/
def State.destroyDone (s : State) (q : Nat) : State :=
  let x := s.prt q
  let sites := s.partSites q
  let dies := s.diesOf q
  let s := sites.foldl (fun s g => s.freeCore g) s
  let units := (s.hbm.owner.filter (fun e => e.2 == q)).map (fun e => e.1)
  let s := units.foldl (fun s u => s.zeroUnit u) s
  let s := { s with mirror := s.mirror.filter (fun e => !sites.contains (e.1 % 8192)) }
  let s := s.cacheDropPart q
  let s := dies.foldl (fun s d => s.dropSet q d) s
  let s := { s with hbm := { s.hbm with owner := s.hbm.owner.filter (fun e => e.2 != q) } }
  let mine := (s.handles.find? (fun h => h.opcode == 0x12 && h.target == q && h.state != .complete)).map (·.h)
  let s := match mine with
    | some h => s.complete h stOk
    | none => s
  let s := { s with handles := s.handles.filter (fun h => !(h.part == q && h.h.toNat / 2 ^ 20 < 4032)
      || (x.bound && (s.func x.hport x.hfunc).held.any (fun e => e.h == h.h))) }
  let s := s.setPrt q Partition.reset
  let s := { s with panel := { s.panel with history := s.panel.history.filter (fun e => e.1 != q) } }
  -- the neighbours on its dies divide the ways anew (R320)
  dies.foldl (fun s d => (s.dieParts d).foldl (fun s p => s.writeSet p d (!s.runLive p)) s) s

/-- PART_DESTROY_DONE (R316, R450): once every core of the partition is IDLE. -/
def execPartDestroyDone (part : Nat) (s : State) : Out :=
  onUnit (partOk part) (fun s =>
    if (s.prt part).state == .destroying then (s.destroyDone part).reserveRetry.settle.startAll else s) s

end Sys2Proof.Machine
end

