-- ==== Sys2Proof/Machine/WorkCmds.lean ====
section
/-! DEFINITION. The commands that do a partition's work: copies and fills (R299), CHECKPOINT (R409), CHECK (R469, R470), RUN
and ABORT (R300–R303), SET_REG (R304), and the ends of commands that complete later. -/

namespace Sys2Proof.Machine

/-- A panel address of a host command and the length that starts there (R213, R299): space 0x0, or 0x3 with a core
of the partition that is mapped, and 0x8 where `host` allows it. -/
def State.panelOk (s : State) (q : Nat) (a : W64) (n : Nat) (host : Bool) : Bool :=
  match addrSpace a with
  | 0 => bits a 59 42 == 0 && bits a 41 0 + n ≤ 2 ^ 42
  | 3 => bits a 46 23 == 0 && bits a 22 0 + n ≤ spSize && bits a 59 47 < (s.prt q).ncores
      && (s.lsite q (bits a 59 47)).isSome
  | 8 => host && bits a 57 57 == 0 && bits a 59 58 == (s.prt q).hport && bits a 56 0 + n ≤ 2 ^ 57
  | _ => false

/-- A core named in space 0x3 runs no command (R299). -/
def State.panelFree (s : State) (q : Nat) (a : W64) : Bool := addrSpace a != 3 || !s.lcoreBusy q (bits a 59 47)

def copyCmd (op : Nat) : Cmd := { Cmd.plain op .bound [ones64, ones64, 2 ^ 40 - 1] (fun _ s _ => (s, 0)) with
  later := true
  param := fun c s => s.panelOk c.part c.q.p1 (bits c.q.p2 39 0) false
  ready := fun c s => s.partUp c.part && s.panelFree c.part c.q.p1 }

def cmdCopyIn : Cmd := copyCmd 0x22
def cmdCopyOut : Cmd := copyCmd 0x23

def cmdFill : Cmd := { Cmd.plain 0x24 .bound [ones64, 2 ^ 40 - 1, ones64] (fun _ s _ => (s, 0)) with
  later := true
  param := fun c s => s.panelOk c.part c.q.p0 (bits c.q.p1 39 0) false
  ready := fun c s => s.partUp c.part && s.panelFree c.part c.q.p0 }

/-- COPY_IN (R299). -/
def execCopyIn (p f ring : Nat) (q : CmdPkt) (s : State) : Out := hostRow cmdCopyIn p f ring q s

/-- COPY_OUT (R299). -/
def execCopyOut (p f ring : Nat) (q : CmdPkt) (s : State) : Out := hostRow cmdCopyOut p f ring q s

/-- FILL (R299). -/
def execFill (p f ring : Nat) (q : CmdPkt) (s : State) : Out := hostRow cmdFill p f ring q s

/-! CHECKPOINT, R409. -/

/-- The RUN a CHECKPOINT names: live and of the partition. -/
def ckptRun (c : Ctx) (s : State) : Option Handle :=
  (s.handle (c.q.p0.setWidth 32)).filter (fun h => h.part == c.part && h.opcode == 0x30)

/-- Bytes of a CHECKPOINT image's range. -/
def ckptLen (n : Nat) : Nat := 4096 + n * 2 ^ 20

/-- The units that [a, a+n) of space 0x0 touches are allocated. -/
def State.unitsOk (s : State) (q : Nat) (a : W64) (n : Nat) : Bool :=
  (List.range ((bits a 41 0 + n - 1) / 2 ^ 30 + 1 - bits a 41 30)).all (fun i =>
    ((s.prt q).units.find (bits a 41 30 + i)).isSome)

def cmdCheckpoint : Cmd := { Cmd.plain 0x25 .bound [0xFFFFFFFF, ones64, 1] (fun _ s _ => (s, 0)) with
  later := true
  param := fun c s =>
    match ckptRun c s with
    | none => false
    | some h => addrSpace c.q.p1 == 0 && c.q.p1.toNat % 4096 == 0 && s.panelOk c.part c.q.p1 (ckptLen h.lcCount) false
        && s.unitsOk c.part c.q.p1 (ckptLen h.lcCount)
  ready := fun c s => s.partUp c.part && (match ckptRun c s with
    | some h => h.state != .complete
    | none => false) }

/-- CHECKPOINT (R409). -/
def execCheckpoint (p f ring : Nat) (q : CmdPkt) (s : State) : Out := hostRow cmdCheckpoint p f ring q s

/-- The register section of a core's slot (R409): PC, c1–c31, k0–k15 and LIVE0–LIVE7, in that order. -/
def ckptRegs (pc : Nat) (c : Tab W64) (k : Tab (BitVec 16)) (live : Tab W64) : Nat :=
  pc + ((List.range 31).map (fun i => (c.getD (i + 1) 0#64).toNat * 2 ^ (64 * (i + 1)))).sum
    + ((List.range 16).map (fun i => (k.getD i 0#16).toNat * 2 ^ (64 * 32 + 16 * i))).sum
    + ((List.range 8).map (fun i => (live.getD i 0#64).toNat * 2 ^ (64 * (36 + i)))).sum

/-- What core i of a RUN writes to its slot: the value, its length and its poison. Epoch 0 is the launch state (R408). -/
def State.ckptSlot (s : State) (h : Handle) (i : Nat) : Nat × Nat × List (Nat × Nat) :=
  match (s.lsite h.part (h.lcFirst + i)).bind (fun g => s.mirror.find g) with
  | some m =>
    (ckptRegs m.pc m.c m.k m.live + ofBytes (m.regions.map (fun e => e.2)) * 2 ^ 4096, 512 + m.regions.length,
      m.poison.map (fun a => (512 + (m.regions.findIdx (fun e => e.1 == a)), 8)))
  | none =>
    (ckptRegs (bits h.pkt.p2 63 44) [(1, h.pkt.p3), (2, h.pkt.p4), (3, h.pkt.p5), (4, BitVec.ofNat 64 i)] [] [], 512, [])

/-- Write bytes of partition q as firmware; whether all were reached. -/
def State.fwWrite (s : State) (q : Nat) (a : W64) (n v : Nat) (po : List (Nat × Nat)) : State × Bool :=
  let l := s.fwRun q a n
  (s.fwPut l.1 v po, l.2)

/-- Write a CHECKPOINT image of RUN h at address a (R409, R468): COMPLETE is cleared first and set last, after the CRC64
over the core slots. -/
def State.ckptWrite (s : State) (h : Handle) (a : W64) : State × Bool :=
  let q := h.part
  let r := s.fwWrite q (a + 16#64) 8 0 []
  let w := r.1.fwWrite q a 16 (h.epoch + (h.lcFirst * 2 ^ 32 + h.lcCount) * 2 ^ 64) []
  let x := (List.range h.lcCount).foldl (fun (x : State × Bool) i =>
    let e := x.1.ckptSlot h i
    let y := x.1.fwWrite q (a + BitVec.ofNat 64 (4096 + 2 ^ 20 * i)) e.2.1 e.1 e.2.2
    (y.1, x.2 && y.2)) (w.1, r.2 && w.2)
  let slots := x.1.fwRun q (a + 4096#64) (h.lcCount * 2 ^ 20)
  if !x.2 || !slots.2 then (x.1, false)
  else
    let crc := chkCrc 3 (toBytes (x.1.fwVal slots.1).1 (h.lcCount * 2 ^ 20))
    let y := x.1.fwWrite q (a + 24#64) 8 crc []
    let z := y.1.fwWrite q (a + 16#64) 8 1 []
    (z.1, y.2 && z.2)

/-- Write an image and remember it for a restore (R413). -/
def State.ckptPut (s : State) (h : Handle) (a : W64) : State × Bool :=
  let w := s.ckptWrite h a
  (if w.2 then w.1.updHandle h.h (fun x => { x with images := (a :: x.images.filter (fun b => b != a)) }) else w.1, w.2)

/-! CHECK, R469. -/

def checkMode (c : Ctx) : Nat := bits c.q.p2 3 2
def checkBlk (c : Ctx) : Nat := bits c.q.p4 23 0

def cmdCheck : Cmd := { Cmd.plain 0x26 .bound
    [ones64, 2 ^ 41 - 1, 0x1F, ones64, 0xFFFF00FFFFFF, ones64] (fun _ s _ => (s, 0)) with
  later := true
  param := fun c s =>
    let n := bits c.q.p1 40 0
    s.panelOk c.part c.q.p0 n true && 1 ≤ n && n ≤ 2 ^ 40 && checkMode c != 3 && c.q.p5.toNat % 32 == 0
      && (bit c.q.p2 4 || c.q.p3 == 0#64)
      && (if checkMode c == 0 then c.q.p4 == 0#64
          else 8 ≤ checkBlk c && checkBlk c % 8 == 0 && checkBlk c ≤ 16777208 && n % (checkBlk c + 16) == 0)
      && (checkMode c != 1 || addrSpace c.q.p0 == 0)
  ready := fun c s => s.partUp c.part && s.panelFree c.part c.q.p0 }

/-- CHECK (R469). -/
def execCheck (p f ring : Nat) (q : CmdPkt) (s : State) : Out := hostRow cmdCheck p f ring q s

/-! RUN, R300. -/

def runFirst (c : Ctx) : Nat := bits c.q.p0 12 0
def runCount (c : Ctx) : Nat := bits c.q.p0 28 16

def cmdRun : Cmd := { Cmd.plain 0x30 .bound
    [0x1FFF1FFF, ones64, 0xFFFFF000007FFFFF, ones64, ones64, ones64, 0xFFFFFFFFFFFF] (fun _ s _ => (s, 0)) with
  later := true
  param := fun c s =>
    let n := bits c.q.p2 22 0
    1 ≤ runCount c && runCount c ≤ 4928 && runFirst c + runCount c ≤ (s.prt c.part).ncores
      && 8 ≤ n && n ≤ 6291456 && n % 8 == 0 && bits c.q.p2 63 44 < n / 8
      && addrSpace c.q.p1 == 0 && s.panelOk c.part c.q.p1 n false
  quota := fun c s => match (s.prt c.part).resize with
    | some (n, _) => (s.prt c.part).ncores ≤ n || runFirst c + runCount c ≤ n
    | none => true
  ready := fun c s => s.partUp c.part && (List.range (runCount c)).all (fun i =>
    !s.lcoreBusy c.part (runFirst c + i) && (s.lsite c.part (runFirst c + i)).isSome) }

/-- RUN (R300). -/
def execRun (p f ring : Nat) (q : CmdPkt) (s : State) : Out := hostRow cmdRun p f ring q s

/-! ABORT and SET_REG, R303, R304. -/

/-- MEM_FREE, PART_DESTROY, CHECKPOINT and FW_UPDATE cannot be aborted (R303). -/
def noAbort (op : Nat) : Bool := [0x21, 0x12, 0x25, 0x40].contains op

def cmdAbort : Cmd := { Cmd.plain 0x31 .adminOrBound [0xFFFFFFFF] (fun c s _ =>
    match c.named s with
    | none => (s, 1)
    | some h => if h.state == .complete then (s, 1) else (((s.endCmd h.h stAbortHost State.endWith).settle).startAll, 0)) with
  param := fun c s => (c.named s).isSome
  ready := fun c s => (c.part == 127 || s.partUp c.part) && !((c.named s).any (fun h => noAbort h.opcode)) }

/-- ABORT (R303): the command's status is decided, and its record is queued when it completes. -/
def execAbort (p f ring : Nat) (q : CmdPkt) (s : State) : Out := hostRow cmdAbort p f ring q s

/-- SET_REG's effect on one core: the state, and whether a Locked field was dropped (R304, R306). -/
def State.setCoreReg (s : State) (g off : Nat) (v mask : W64) : State × Bool :=
  (s.siteWake g).coreWriteSel g off ((s.coreView g off &&& ~~~mask) ||| (v &&& mask)) false (RegDef.pick mask)

def regFirst (c : Ctx) : Nat := bits c.q.p0 28 16
def regCount (c : Ctx) : Nat := bits c.q.p0 44 32

def cmdSetReg : Cmd := { Cmd.plain 0x32 .bound [0x1FFF1FFF0FFF, ones64, ones64] (fun c s _ =>
    let sites := (List.range (regCount c)).filterMap (fun i => s.lsite c.part (regFirst c + i))
    let r := sites.foldl (fun (x : State × Nat) g =>
      let y := x.1.setCoreReg g (bits c.q.p0 11 0) c.q.p1 c.q.p2
      (y.1, x.2 + b2n y.2)) (s, 0)
    (r.1, sites.length + r.2 * 2 ^ 32)) with
  param := fun c s =>
    let off := bits c.q.p0 11 0
    regFirst c + regCount c ≤ (s.prt c.part).ncores && off % 8 == 0
      && (match findReg coreRegs off with
          | none => false
          | some d => d.fields.all (fun f => !f.fw || bits c.q.p2 f.hi f.lo == 0))
  ready := fun c s => s.partUp c.part }

/-- SET_REG (R304). -/
def execSetReg (p f ring : Nat) (q : CmdPkt) (s : State) : Out := hostRow cmdSetReg p f ring q s

/-! Completion. -/

/-- COMMAND_ADMIT (R330): the planner's retry at a tick or a window start. -/
def execCommandAdmit (part : Nat) (s : State) : Out := onUnit (partOk part) (fun s => s.startWaiting part) s

/-- A command has completed: over-quota bits follow, and what waited for it may start. -/
def State.afterEnd (s : State) : State := s.reserveRetry.settle.startAll

/-- RUN_COMPLETE (R301, R303): every core of the RUN has halted, or ABORT has ended it. -/
def execRunComplete (h : W32) (s : State) : Out :=
  .next (match s.handle h with
    | none => s
    | some x =>
      let l := s.jobSites h
      if x.opcode == 0x30 && x.due then (s.queueRecord h).afterEnd
      else if x.opcode == 0x30 && x.state == .running && l.length == x.lcCount && l.all (fun g => (s.core g).seq == .halted)
      then (s.runEnd h stOk).afterEnd else s)

/-- RUN_TIMEOUT (R302): the count does not run while the partition is paused. -/
def execRunTimeout (h : W32) (s : State) : Out :=
  .next (match s.handle h with
    | none => s
    | some x =>
      if x.opcode == 0x30 && x.state == .running && bits x.pkt.p6 47 32 != 0 && (s.prt x.part).causes.isEmpty
      then (s.endCmd h stTimeout).afterEnd else s)

/-- The partition's function can be reached (R309). -/
def State.hostReach (s : State) (q : Nat) : Bool := (s.prt q).bound && (s.port (s.prt q).hport).up

/-- Hold a command's host-memory transfer (R309). -/
def State.holdHost (s : State) (h : Handle) : State := s.updHandle h.h (fun x => { x with hostHeld := true })

/-- End a copy, fill or check: contained when a byte was refused (R299, R416). -/
def State.workEnd (s : State) (h : Handle) (ok : Bool) : State := s.complete h.h (if ok then stOk else stContained)

/-- Bytes that a copy or a fill moves in all. -/
def Handle.copyLen (h : Handle) : Nat := if h.opcode == 0x24 then bits h.pkt.p1 39 0 else bits h.pkt.p2 39 0

/-- Bytes [a, a+n) of a COPY_IN, a COPY_OUT or a FILL: what lies before a refused byte is moved. -/
def State.copyPiece (s : State) (h : Handle) (a n : Nat) : State × Bool :=
  let q := h.part
  let x := s.prt q
  let k := BitVec.ofNat 64 a
  if h.opcode == 0x24 then s.fwWrite q (h.pkt.p0 + k) n (patVal h.pkt.p2 a n) []
  else
    let l := s.fwRun q (h.pkt.p1 + k) n
    if h.opcode == 0x22 then (s.fwPut l.1 (s.hostRead x.hport (h.pkt.p0.toNat + a) n) [], l.2)
    else ((s.fwCorrect q l.1).hostWrite x.hport (h.pkt.p0.toNat + a) ((l.1.map (fun p => p.len)).sum) (s.fwVal l.1).1, l.2)

/-- A copy that needs host memory stops before its next transaction while the function cannot be reached (R309). -/
def State.copyHeld (s : State) (h : Handle) : Bool := h.opcode != 0x24 && !s.hostReach h.part

/-- One 512-byte transaction of a copy or a fill (R303). -/
def State.copyStep (s : State) (h : Handle) : State :=
  if h.copyLen ≤ h.done then s
  else if s.copyHeld h then s.holdHost h
  else
    let n := min 512 (h.copyLen - h.done)
    let r := s.copyPiece h h.done n
    if r.2 then r.1.updHandle h.h (fun x => { x with done := h.done + n, hostHeld := false }) else (r.1.workEnd h false).afterEnd

/-- COPY_IN, COPY_OUT and FILL move the bytes that are left; those before a refused one stay written. -/
def State.copyDone (s : State) (h : Handle) : State :=
  if s.copyHeld h then s.holdHost h
  else
    let r := s.copyPiece h h.done (h.copyLen - h.done)
    r.1.workEnd h r.2

/-- Copies and fills that have started go on by a transaction each (log entry 71); while their partition is paused they stand
(R305). -/
def State.copyAll (s : State) : State :=
  if !s.fwRuns || s.therm.hold != 0 then s
  else (s.handles.filter (fun h => [0x22, 0x23, 0x24].contains h.opcode && h.state == .running
    && (s.prt h.target).state != .paused)).foldl State.copyStep s

/-- The check unit that a CHECK of partition q gets: free, of its managing controller, the lower first (R470). -/
def State.checkUnit (s : State) (q : Nat) : Option Nat :=
  let m := (s.server (s.prt q).hport).getD 0
  [384 + 2 * m, 385 + 2 * m].find? (fun u => !s.chkBusy u)

/-- CHECK commands of one controller are served in the order taken (R470). -/
def State.checkTurn (s : State) (h : Handle) : Bool :=
  let m := s.server (s.prt h.part).hport
  (s.handles.find? (fun x => x.opcode == 0x26 && x.state == .running && s.server (s.prt x.part).hport == m)).map (·.h)
    == some h.h

/-- CHECK runs on its unit and its result block is written (R470). -/
def State.checkDone (s : State) (h : Handle) : State :=
  let q := h.part
  let x := s.prt q
  let c : Ctx := ⟨h.port, h.func, h.ring, h.pkt, none⟩
  if !s.hostReach q then s.holdHost h
  else match s.checkUnit q with
  | none => s
  | some u =>
    if !s.checkTurn h then s
    else
      let k := chkPage u
      let a := h.pkt.p0
      let n := bits h.pkt.p1 40 0
      let mode := checkMode c
      let poly := bits h.pkt.p2 1 0
      let i := if u % 2 == 0 then 3 else 0
      let pad := addrSpace a == 3
      let phys := match (x.cores.find (bits a 59 47)) with
        | some e => if pad then BitVec.ofNat 64 (2 * 2 ^ 60 + e.1 * 2 ^ 51 + e.2 * 2 ^ 47 + bits a 22 0) else a
        | none => a
      let s := (((((s.setFld k CHK_CFG_BLKLEN (checkBlk c)).setFld k CHK_CFG_CTX i).setFld k CHK_CFG_PART
        (if pad then 127 else q)).setFld k CHK_CFG_MODE mode).setFld k CHK_CFG_POLY poly)
      let s := ((s.setFld k CHK_ADDR_W phys.toNat).setFld k CHK_LEN_LEN n).setFld k (CHK_CTX_CMODE i) mode
      let s := s.chkBegin u 0 1
      let ctx : ChkCtx := { s.chkCtx u i with count := bits h.pkt.p4 47 32 }
      let r := s.scan (s.fwAt q) q poly mode (checkBlk c) ctx a n
      let s := if mode == 0 then r.1 else r.1.setChkCtx u i r.2.1.ctx
      let s := s.chkFinish u r.2.1 r.2.2.1 r.2.2.2.2
      let ok := !bit h.pkt.p2 4 || h.pkt.p3.toNat == r.2.1.crc
      let s := s.hostWrite x.hport h.pkt.p5.toNat 32 (r.2.1.crc + (b2n ok + min r.2.1.bad 0xFFFFFFFF * 2 ^ 32) * 2 ^ 64
        + r.2.2.1 * 2 ^ 128 + r.2.2.2.1 * 2 ^ 192)
      s.workEnd h r.2.2.2.2

/-- CHECKPOINT: the image of the last committed epoch, or, with AUTO, the end of its RUN (R409). -/
def State.ckptDone (s : State) (h : Handle) : State :=
  match s.handle (h.pkt.p0.setWidth 32) with
  | none => s.complete h.h stOk
  | some r =>
    if bit h.pkt.p2 0 then (if r.state == .complete then s.complete h.h stOk else s)
    else
      (s.ckptPut r h.pkt.p1).1.workEnd h (s.ckptPut r h.pkt.p1).2

/-- MEM_FREE once its entries have left the window sets: the units are zero and unowned (R323, R450). -/
def State.memFreeDone (s : State) (h : Handle) : State :=
  if s.setsStaged h.target then s
  else
    let units := h.cnt.map (fun e => e.2)
    let s := units.foldl (fun s u => s.zeroUnit u) s
    let s := { s with hbm := { s.hbm with owner := s.hbm.owner.filter (fun e => !units.contains e.1) } }
    (s.cacheDropPart h.target).complete h.h stOk

/-- PART_RESIZE: a growth once every window set shows it, a shrink once no live command holds a removed core (R322). -/
def State.resizeDone (s : State) (h : Handle) : State :=
  let q := h.target
  let x := s.prt q
  match x.resize with
  | none => s.complete h.h stOk
  | some (n, _) =>
    if s.setsStaged q then s
    else if x.ncores ≤ n then (s.updPrt q (fun x => { x with resize := none })).complete h.h stOk
    else if (List.range (x.ncores - n)).any (fun i => s.lcoreBusy q (n + i)) then s
    else
      let gone := (List.range (x.ncores - n)).filterMap (fun i => s.lsite q (n + i))
      let dies := s.diesOf q
      let s := gone.foldl (fun s g => s.freeCore g) s
      let s := s.updPrt q (fun x => { x with ncores := n, resize := none, cores := x.cores.filter (fun e => e.1 < n) })
      let left := dies.filter (fun d => !(s.prt q).cores.any (fun e => e.2.1 == d))
      let s := left.foldl (fun s d => (s.dropSet q d)) s
      let s := left.foldl (fun s d => (s.dieParts d).foldl (fun s p => s.writeSet p d (!s.runLive p)) s) s
      let s := s.writeSets q
      let s := if s.runLive q then s else s.cacheDropPart q
      (s.overClear q).complete h.h stOk

/-- PAUSE completes when no core of the partition runs (R305). -/
def State.pauseDone (s : State) (h : Handle) : State :=
  if (s.partSites h.target).any (fun g => (s.core g).seq == .run || (s.core g).seq == .wait) then s
  else s.complete h.h stOk

/-- COMMAND_COMPLETE: the end of a started command other than RUN, PART_CREATE, PART_DESTROY and FW_UPDATE, whose ends have
rows of their own; nothing moves while the partition is paused, but for PAUSE (R305). -/
def execCommandComplete (h : W32) (s : State) : Out :=
  .next (match s.handle h with
    | none => s
    | some x =>
      if x.opcode != 0x30 && x.due then (s.queueRecord h).afterEnd
      else if x.state != .running then s
      else if x.opcode == 0x15 then (s.pauseDone x).afterEnd
      else if (s.prt x.target).state == .paused then s
      else match x.opcode with
        | 0x11 => (s.resizeDone x).afterEnd
        | 0x21 => (s.memFreeDone x).afterEnd
        | 0x22 | 0x23 | 0x24 => (s.copyDone x).afterEnd
        | 0x25 => (s.ckptDone x).afterEnd
        | 0x26 => (s.checkDone x).afterEnd
        | _ => s)

end Sys2Proof.Machine
end

