-- ==== Sys2Proof/Machine/SysCmds.lean ====
section
/-! DEFINITION. The administrator's commands for the panel itself: FW_UPDATE (R451), DEBUG_UNLOCK (R448, R449), LOG_RING
(R489) and SET_CEILING (R331). -/

namespace Sys2Proof.Machine

/-- An error is being handled, or a storm is in force (R451). -/
def State.errBusy (s : State) : Bool := s.err.handling.isSome || s.err.storm

def cmdFwUpdate : Cmd := { Cmd.plain 0x40 .admin [ones64, 0xFFFFFFFF, 7] (fun c s h =>
    ({ s with boot := { s.boot with update := some {
        handle := h, img := none, commit := bit c.q.p2 0, revoke := bit c.q.p2 1, restart := bit c.q.p2 2, step := 1 } } },
      0)) with
  later := true
  param := fun c _ => c.q.p0.toNat % 4096 == 0 && 8193 ≤ bits c.q.p1 31 0 && bits c.q.p1 31 0 ≤ 33562624
  ready := fun c s => s.boot.update.isNone && !s.boot.debugRestart && !s.errBusy
    && (bit c.q.p2 2 || !(s.boot.c0.sole || s.boot.c1.sole))
  target := fun _ _ => 127 }

/-- FW_UPDATE (R451). -/
def execFwUpdate (p f ring : Nat) (q : CmdPkt) (s : State) : Out := hostRow cmdFwUpdate p f ring q s

/-! DEBUG_UNLOCK, R448. -/

/-- Every partition is FREE and no FW_UPDATE is live. -/
def State.debugReady (s : State) : Bool := partIds.all (fun q => !(s.prt q).live) && s.boot.update.isNone

/-- The checks of R447 as R448 changes them; SCOPE names bits 2–0 only (R449). -/
def State.tokenOk (s : State) (c : Ctx) : Bool :=
  let l := s.reqBlock c.p c.q.p1
  let w := blkWord l 0
  bits w 63 56 == 1 && bits w 55 51 == 0 && bits w 39 0 == 0
    && nonceOk s.boot.debugNonce s.ms (blkWord l 1)
    && sliceBytes l 0x10 48 == digestBytes (sha384 (toBytes Config.deviceKey.toNat 32))
    && Config.rootHash 1 (bits w 47 44) == blkEdHash l && Config.rootHash 2 (bits w 43 40) == blkMlHash l
    && blkSigned l

/-- READY clears and both controllers are to restart (R448). -/
def State.debugLatch (s : State) (unlocked : Bool) (scope : Nat) : State :=
  State.capSync { s with boot := { s.boot with
    unlocked := unlocked, scope := scope, ready := false, debugRestart := true
    tapMaster := false, chainMeridian := false } } s

def cmdDebugChallenge : Cmd := Cmd.plain 0x41 .admin adminMasks (fun _ s _ =>
  let v := Config.freeW64 s.free
  ({ s with boot := { s.boot with debugNonce := some (v, s.ms) }, free := s.free + 1 }, v.toNat))

/-- MODE 1, and the value 3 that no mode has. -/
def cmdDebugUnlock : Cmd := { Cmd.plain 0x41 .admin adminMasks (fun c s _ =>
    let l := s.reqBlock c.p c.q.p1
    let s := { s with boot := { s.boot with debugNonce := none } }
    (s.debugLatch true (bits (blkWord l 0) 50 48), 0)) with
  token := fun c s =>
    if bits c.q.p0 1 0 == 3 || bits c.q.p2 15 0 != 5421 then 0
    else if s.tokenOk c then 0 else stRejRole
  param := fun c _ => bits c.q.p0 1 0 == 1 && bits c.q.p2 15 0 == 5421
  ready := fun _ s => s.debugReady }

def cmdDebugRelock : Cmd := { Cmd.plain 0x41 .admin adminMasks (fun _ s _ => (s.debugLatch false 0, 0)) with
  ready := fun _ s => s.debugReady }

/-- DEBUG_UNLOCK, MODE 0 (R448). -/
def execDebugChallenge (p f ring : Nat) (q : CmdPkt) (s : State) : Out := hostMode cmdDebugChallenge [0] p f ring q s

/-- DEBUG_UNLOCK, MODE 1 (R448). -/
def execDebugUnlock (p f ring : Nat) (q : CmdPkt) (s : State) : Out := hostMode cmdDebugUnlock [1, 3] p f ring q s

/-- DEBUG_UNLOCK, MODE 2 (R448). -/
def execDebugRelock (p f ring : Nat) (q : CmdPkt) (s : State) : Out := hostMode cmdDebugRelock [2] p f ring q s

/-! LOG_RING and SET_CEILING. -/

/-- The ring of error records moves to a function (R489). -/
def State.setLogRing (s : State) (p f : Nat) (base : W64) (log2 : Nat) : State :=
  let s := match s.panel.logRing with
    | some e => if e == (p, f) then s else s.setFld (barPage e.1 e.2) LOG_CFG_ENABLE 0
    | none => s
  let bp := barPage p f
  let s := s.setReg (bp + 0x1A0) base
  let s := ((s.setFld bp LOG_CFG_LOG2SIZE log2).setFld bp LOG_CFG_TAIL 0).setFld bp LOG_CFG_ENABLE 1
  let s := s.setFunc p f { s.func p f with logHead := 0 }
  { s with panel := { s.panel with logRing := some (p, f) } }

def cmdLogRing : Cmd := { Cmd.plain 0x42 .admin [ones64, 0xF] (fun c s _ =>
    (s.setLogRing c.p c.f c.q.p0 (bits c.q.p1 3 0), 0)) with
  param := fun c _ => c.q.p0.toNat % 4096 == 0 }

/-- LOG_RING (R489). -/
def execLogRing (p f ring : Nat) (q : CmdPkt) (s : State) : Out := hostRow cmdLogRing p f ring q s

def cmdSetCeiling : Cmd := Cmd.plain 0x43 .admin [0xFFFFFFFF] (fun c s _ =>
  (({ s with panel := { s.panel with adminCeil := bits c.q.p0 31 0 } } : State).ceilSync, 0))

/-- SET_CEILING (R331). -/
def execSetCeiling (p f ring : Nat) (q : CmdPkt) (s : State) : Out := hostRow cmdSetCeiling p f ring q s

end Sys2Proof.Machine
end

