-- ==== Sys2Proof/Machine/Repair.lean ====
section
/-! DEFINITION. Spares, re-mapping and mirrors: the states of dies (R31), routers that leave service (R264), lost slices
(R416), row spares and moved cores (R401–R404), reserve dies (R26–R28, R403), and partner mirrors (R406–R408). -/

namespace Sys2Proof.Machine

/-- A router becomes a hole or returns (R264): its own bit, and the hole maps of its row and column. -/
def State.setHole (s : State) (r v : Nat) : State :=
  let s := s.setFld (routerPage r) RT_STATUS_HOLE v
  let put := fun (m i : Nat) => if v == 1 then setBit m i else clearBit m i
  let s := (List.range 24).foldl (fun s x =>
    let k := spinePage (dieAt x (dieY r))
    s.setFld k MC_HOLES_ROW_HOLES (put (s.fld k MC_HOLES_ROW_HOLES) (dieX r))) s
  (List.range 16).foldl (fun s y =>
    let k := spinePage (dieAt (dieX r) y)
    s.setFld k MC_HOLES_COL_HOLES (put (s.fld k MC_HOLES_COL_HOLES) (dieY r))) s

/-- Dies over base die u. -/
def baseDies (u : Nat) : List Nat := (List.range 4).map (fun cy => dieOfBase u cy)

/-- Slices behind the routers of base die u (R20). -/
def State.baseSlices (s : State) (u : Nat) : List Nat :=
  (List.range 4096).filter (fun k => s.part.hasStack (k / 64) && baseOf (sliceRouter k) == u)

/-- Slices leave service (R416): one HBM_LOST error, and HBM_DEGRADED. -/
def State.slicesOut (s : State) (l : List Nat) (b : Nat) : State :=
  let new := l.filter (fun k => !s.hbm.downNow.contains k)
  match new with
  | [] => s
  | k :: _ =>
    let s := { s with hbm := { s.hbm with downNow := new.foldl setIns s.hbm.downNow } }
    let s := if s.hbm.built then { s with panel := { s.panel with hbmDegraded := true } } else s
    s.blockErr srcHbmLost b (locSlice (k / 64) (k % 64)) (dieAt (3 * (b % 8)) (4 * (b / 8)))

/-- The same, and the capability record follows. -/
def State.slicesLost (s : State) (l : List Nat) (b : Nat) : State := (s.slicesOut l b).capSync s

/-- Every pair from and to block b closes (R269, R420). -/
def State.closeBlock (s : State) (b : Nat) : State :=
  let s := s.closeEngine b
  (List.range 32).foldl (fun s t =>
    if t == b || s.fld (photPage t) (PH_PAIR_NWORK b) == 0 then s
    else (s.setPair t b 0 (s.fld (photPage t) (PH_PAIR_SPARE b)) (s.fld (photPage t) (PH_PAIR_FAILED b))).engineView t) s

/-- A photonic engine is lost (R356, R397). -/
def State.photLost (s : State) (b : Nat) : State :=
  if s.photState b != 0 then s
  else
    let s0 := s
    let s := (s.setAlm (almKey almPhot b) 2).closeBlock b
    (s.logCorrected srcPhotonic 127 (locBlock b) 0#64 []).capSync s0

/-! Partner mirrors, R406–R408. -/

/-- A compute die in service: it counts its cores or is held in reserve, and its block is on. -/
def State.dieIn (s : State) (d : Nat) : Bool := (s.dieCounts d || s.dieState d == dieReserve) && s.blockOn (blockOf d)

/-- The partner of die d (R406). -/
def State.partner (s : State) (d : Nat) : Option Nat :=
  let p := dieAt (23 - dieX d) (dieY d)
  if s.dieIn p then some p
  else
    ((List.range 384).filter (fun t => eastDie t != eastDie d && s.dieIn t)).foldl (fun (best : Option Nat) t =>
      match best with
      | none => some t
      | some b => if meshDist t d < meshDist b d then some t else some b) none

/-- Firmware records each die's partner in the Almanac, and assigns another when it leaves service (R406). -/
def State.recordPartners (s : State) : State :=
  (List.range 384).foldl (fun s d =>
    match s.partner d with
    | some p => if s.almVal (almKey almPartner d) 384 == p then s else s.setAlm (almKey almPartner d) p
    | none => s) s

/-- The mirror key of the generation that does not hold the last committed epoch. -/
def mirrorNew (g : Nat) : Nat := 8192 + g

/-- Mirrors whose store lay under base die u are lost (R413). -/
def State.mirrorsLost (s : State) (u : Nat) : State :=
  { s with mirror := s.mirror.filter (fun e => baseOf e.2.partner != u) }

/-- Bytes of the regions LIVE0–LIVE7 name, in their order (R119). -/
def State.liveBytes (s : State) (g : Nat) : List (Nat × Byte) :=
  (List.range 8).flatMap (fun i =>
    let a := 32 * s.fld (corePage g) (LIVE_START i)
    (List.range (32 * s.fld (corePage g) (LIVE_LEN i))).map (fun j => (a + j, memGet s.mem (spBase g + (a + j)))))

/-- Poisoned granules in those regions. -/
def State.livePoison (s : State) (g : Nat) : List Nat :=
  (List.range 8).flatMap (fun i =>
    let a := 32 * s.fld (corePage g) (LIVE_START i)
    (granules a (32 * s.fld (corePage g) (LIVE_LEN i)) 8).filter (fun q => s.poison.contains (spBase g + q)))

/-- A core's mirrored state at the EPOCH it waits at (R119). -/
def State.mirrorOf (s : State) (g p : Nat) : Mirror :=
  let c := s.core g
  { epoch := s.fld (corePage g) EPOCH_REG_W + 1, partner := p, pc := c.pc + 1,
    c := c.c, k := c.k, live := (List.range 8).map (fun i => (i, s.reg (corePage g + 0x488 + 8 * i) 0)),
    regions := s.liveBytes g, poison := s.livePoison g, trailerOk := true }

/-- The slot that names site g. -/
def State.slotOf (s : State) (g : Nat) : Option Nat :=
  (List.range 14).find? (fun j => s.slotSite (dieOfSite g) j == some g)

/-- MIRROR_COPY_DONE (R118, R408): the copy of a core that has arrived stands in its partner's store, with the trailer
that the partner's check unit appends in the slot's context (R468). -/
def execMirrorCopyDone (g : Nat) (s : State) : Out :=
  onUnit (siteOk g) (fun s =>
    let c := s.core g
    if !c.arrived || c.copied then s
    else match s.partner (dieOfSite g) with
    | none => s
    | some p =>
      let s := (List.range 8).foldl (fun s i =>
        s.readAll g (32 * s.fld (corePage g) (LIVE_START i)) (32 * s.fld (corePage g) (LIVE_LEN i)) 3 1) s
      let m := s.mirrorOf g p
      let s := s.setFld (chkPage p) (CHK_CTX_COUNT ((s.slotOf g).getD 15)) ((m.epoch + 1) % 65536)
      { s.updCore g (fun c => { c with copied := true }) with mirror := s.mirror.set (mirrorNew g) m }) s

/-! Moving logical cores, R401–R404. -/

/-- Packets on their way to slot j of die d are dropped at its spine (R410). -/
def State.dropTo (s : State) (d j : Nat) : State :=
  let l := s.fab.packets.filter (fun k => k.h.drouter == d && k.h.dep == j)
  l.foldl (fun s k => s.dropAt d k.id) s

/-- The identity of a logical core passes from site g to site t (R401, R402): its place, its job and the epoch it
has reached; t is zeroised with its map tables loaded, and g is reset. -/
def State.passCore (s : State) (g t : Nat) : State :=
  let o := s.core g
  let ep := s.fld (corePage g) EPOCH_REG_W
  let s := ((s.coreReset g).coreReset t).zeroSp t
  let s := s.updCore t (fun c => { c with
    part := o.part, lcore := o.lcore, handle := o.handle, launch := o.launch,
    seq := if o.seq == .halted then .halted else .idle })
  let s := match s.mirror.find g with
    | some m => { s with mirror := ((s.mirror.erase g).erase (mirrorNew g)).set t m }
    | none => s
  s.setFld (corePage t) EPOCH_REG_W ep

/-- The partition and logical core that slot j of die d carries. -/
def State.carried (s : State) (d j : Nat) : Option (Nat × Nat) :=
  (partIds.filterMap (fun q =>
    if (s.prt q).live then ((s.prt q).cores.find? (fun e => e.2 == (d, j))).map (fun e => (q, e.1)) else none)).head?

/-- The partitions on die d have changed: their sets and ways are written, and a set no longer used is dropped. -/
def State.rewriteDie (s : State) (d : Nat) : State :=
  (s.dieParts d).foldl (fun s p => s.writeSet p d (!s.runLive p)) s

def State.tidyDie (s : State) (q d : Nat) : State :=
  (if (s.dieParts d).contains q then s else s.dropSet q d).rewriteDie d

/-- The first free slot of die t. -/
def State.slotOn (s : State) (t : Nat) : Option (Nat × Nat) := ((s.freeSlots t).head?).map (fun j => (t, j))

/-- A free counted core for partition q on another die than d (R402, steps 2 and 3). -/
def State.freeElse (s : State) (q d : Nat) : Option (Nat × Nat) :=
  let best := fun (p : Nat → Bool) =>
    (((List.range 384).filter (fun t => t != d && p t && !(s.freeSlots t).isEmpty)).foldl
      (fun (b : Option Nat) t => match b with
        | none => some t
        | some x => if meshDist t d < meshDist x d then some t else some x) none)
  ((best (fun t => (s.dieParts t).contains q)).bind s.slotOn).or ((best (fun t => (s.dieParts t).length < 4)).bind s.slotOn)

/-- A free counted core for partition q near die d (R402). -/
def State.freeNear (s : State) (q d : Nat) : Option (Nat × Nat) := (s.slotOn d).or (s.freeElse q d)

/-- The reserve of die d's block takes the die over and becomes COUNTED (R28, R403). -/
def State.takeOver (s : State) (d : Nat) : State :=
  match s.reserveOf (blockOf d) with
  | some t =>
    let s := s.setDie t dieCounted
    { s with err := { s.err with takers := s.err.takers.set d t } }
  | none => s

/-- Where a logical core of partition q goes when it leaves die d as a whole (R403): to the reserve that took the die over,
else by R402 steps 2 and 3. -/
def State.placeFor (s : State) (q d : Nat) : Option (Nat × Nat) :=
  ((s.err.takers.find d).bind s.slotOn).or (s.freeElse q d)

/-- RUNs whose range includes a logical core that is left unmapped (R404). -/
def State.unmapped (s : State) (q l : Nat) : State :=
  (s.handles.filter (fun h => h.part == q && h.opcode == 0x30 && h.state != .complete
    && h.lcFirst ≤ l && l < h.lcFirst + h.lcCount)).foldl (fun s h => s.endCmd h.h stContained) s

/-- Logical core l of partition q leaves site g of die d for a place, or is left unmapped (R402, R404). -/
def State.moveCore (s : State) (q l g d : Nat) (dst : Option (Nat × Nat)) : State :=
  let s := match dst with
    | some t =>
      let s := s.updPrt q (fun x => { x with cores := x.cores.set l t })
      match s.slotSite t.1 t.2 with
      | some u => ((s.passCore g u).writeSetsNow q).seatCore q l
      | none => s
    | none =>
      let s := (s.updPrt q (fun x => { x with cores := x.cores.erase l })).unmapped q l
      (s.coreReset g).writeSetsNow q
  let s := match dst with
    | some t => if t.1 == d then s else ((s.tidyDie q d).rewriteDie t.1).writeShares q
    | none => s.tidyDie q d
  s.cacheDropPart q

/-- The working spare of site g's row (R24). -/
def State.rowSpare (s : State) (g : Nat) : Option Nat :=
  ((List.range 8).map (fun i => g / 8 * 8 + i)).find? (fun t => s.siteState t == siteSpare)

/-- A site fails: its row spare takes its slot, or its logical core moves (R401, R402). -/
def State.replaceSite (s : State) (g : Nat) : State :=
  let d := dieOfSite g
  if s.siteState g != siteCounted && s.siteState g != siteSpare then s else
  let s := s.setSite g siteFailedField
  match s.slotOf g with
  | none => s
  | some j =>
    let s := s.dropTo d j
    match s.rowSpare g with
    | some t =>
      let s := s.setSite t siteCounted
      let s := s.setFld (spinePage d) (SLOT_MAP_SITE j) (t % 16)
      match s.carried d j with
      | some e => ((s.passCore g t).seatCore e.1 e.2).cacheDropPart e.1
      | none => s.passCore g t
    | none =>
      let s := s.setFld (spinePage d) (SLOT_MAP_VALID j) 0
      match s.carried d j with
      | some e => s.moveCore e.1 e.2 g d (s.freeNear e.1 d)
      | none => s

/-- The action of R382 that replaces site g: SPARE, when the row has a working spare for its slot, or REMAP. -/
def State.siteAction (s : State) (g : Nat) : Nat := if (s.rowSpare g).isSome then 2 else 3

/-- A die leaves service (R403, R415), if its block going dark has not taken it out of it already (R31): the reserve of its
block takes over, unless the block is dark, and the logical cores it carried move. -/
def State.retireDie (s : State) (d v : Nat) : State :=
  let was := s.dieCounts d
  let out := s.dieState d == dieRetired || s.dieState d == dieDark
  if out && v != dieDark then s
  else
    let l := (List.range 14).filterMap (fun j => (s.carried d j).bind (fun e =>
      (s.slotSite d j).map (fun g => (e.1, e.2, g))))
    let s := s.setDie d v
    let s := if v == dieDark || !was then s else s.takeOver d
    let s := (List.range 14).foldl (fun s j => s.dropTo d j) s
    let s := (l.mergeSort (fun a b => a.1 < b.1 || (a.1 == b.1 && a.2.1 ≤ b.2.1))).foldl (fun s e =>
      s.moveCore e.1 e.2.1 e.2.2 d (s.placeFor e.1 d)) s
    let s := s.recordPartners
    { s with err := { s.err with takers := s.err.takers.erase d, waiting := setDel s.err.waiting d, expelling := setDel s.err.expelling d } }

/-! Base dies, R397, R418, R420. -/

/-- Packets in the routers of a base die that has no power are lost (R278); their transactions time out. -/
def State.losePackets (s : State) (u : Nat) : State :=
  { s with fab := { s.fab with packets := s.fab.packets.filter (fun k => match k.loc with
      | .injq r | .router r _ | .link r _ _ _ => baseOf r != u
      | _ => true) } }

/-- A base die is lost: its routers are holes, the mirrors and slices behind them are gone, and a middle one closes its
block's pairs. -/
def State.baseLost (s : State) (u : Nat) : State :=
  if s.baseState u == 2 then s
  else
    let s0 := s
    let s := s.setAlm (almKey almBase u) 2
    let s := (baseDies u).foldl (fun s r => s.setHole r 1) s
    let s := (s.losePackets u).mirrorsLost u
    let s := if u % 3 == 1 && s.part.hasTransit then s.closeBlock (u / 3) else s
    let s := { s with err := { s.err with resetting := setDel s.err.resetting u } }
    let s := s.blockErr srcBaseLost (u / 3) (locDie (dieOfBase u 0)) (dieOfBase u 0)
    ((s.slicesLost (s.baseSlices u) (u / 3)).routeUpdate).capSync s0

/-! Photonic pairs that open, R267, R269, R425. -/

/-- The engine of block b can carry traffic: fitted, in service, its comb source sound, the routers it reaches in
service, its block on. -/
def State.engineOk (s : State) (b : Nat) : Bool :=
  s.part.hasTransit && s.photState b == 0 && s.baseState (3 * b + 1) == 0 && !s.fab.combFailed.contains b

/-- Train the wavelengths of a pair (R425): failed planes stay out, the lowest eight good ones form the stripe, and the
others are spares. -/
def State.trainPair (s : State) (b t : Nat) : State :=
  let failed := popMask 10 (fun k => s.almVal (almKey almWave (512 * b + 16 * t + k)) 0 == 1)
  let good := (List.range 10).filter (fun k => failed / 2 ^ k % 2 == 0)
  let mask := fun (l : List Nat) => (l.map (fun k => 2 ^ k)).sum
  s.setPair b t (mask (good.take 8)) (mask (good.drop 8)) failed

/-- The engine of block b starts, and the pairs between it and the others that run open. -/
def State.openBlock (s : State) (b : Nat) : State :=
  if !s.engineOk b then s
  else
    let s := (s.setFld (photPage b) PH_CFG_DISABLE 0).setFld (photPage b) PH_STATUS_COMB_LOCK 1
    let s := (List.range 32).foldl (fun s t =>
      if t == b || !s.engineOk t || s.fld (photPage t) PH_CFG_DISABLE == 1 then s
      else ((s.trainPair b t).trainPair t b).engineView t) s
    s.engineView b

end Sys2Proof.Machine
end

