-- ==== Sys2Proof/Machine/Recovery.lean ====
section
/-! DEFINITION. Epochs (R118, R408), the handling of contained errors (R385–R389) and the recovery of jobs (R410–R414). -/

namespace Sys2Proof.Machine

/-! Restoring a core, R131, R410. -/

/-- What a core is restored to: PC, registers, counters, LIVE words, the live bytes and their poisoned granules. -/
structure CoreImage where
  pc : Nat
  c : Tab W64
  k : Tab (BitVec 16)
  live : Tab W64
  regions : List Byte
  poison : List Nat

def Mirror.image (m : Mirror) : CoreImage := ⟨m.pc, m.c, m.k, m.live, m.regions.map (fun e => e.2), m.poison⟩

/-- Write the live regions back in their order. -/
def State.putRegions (s : State) (g : Nat) (live : Tab W64) (i n : Nat) (l : List Byte) : State :=
  match n with
  | 0 => s
  | k + 1 =>
    let w := live.getD i 0#64
    let m := 32 * bits w 45 28
    (s.spStore g (32 * bits w 63 46) m (ofBytes (l.take m))).putRegions g live (i + 1) k (l.drop m)

/-- A core restored to epoch e and restarted (R410, steps 6 and 7). -/
def State.restoreCore (s : State) (h : W32) (g e : Nat) (m : CoreImage) : State :=
  let bp := corePage g
  let s := s.putRegions g m.live 0 8 m.regions
  let s := m.poison.foldl (fun s a => s.poisonRange (spBase g + a) 8 8) s
  let s := (List.range 8).foldl (fun s i => s.setReg (bp + 0x488 + 8 * i) (m.live.getD i 0#64)) s
  let s := s.updCore g (fun c => { c with c := m.c, k := m.k, handle := h })
  let s := (s.setFld bp RESTORE_PC_W m.pc).setFld bp RESTORE_EPOCH_W e
  ((s.siteWake g).seqRstart g).gated g

/-! Epochs, R118. -/

/-- A core's part in a commit: the copied generation becomes the committed one and the EPOCH ends. -/
def State.commitCore (s : State) (g e : Nat) : State :=
  let s := match s.mirror.find (mirrorNew g) with
    | some m => { s with mirror := (s.mirror.set g { m with epoch := e }).erase (mirrorNew g) }
    | none => s
  let s := s.setFld (corePage g) EPOCH_REG_W e
  let c := s.core g
  let c := { c with arrived := false, copied := false, stall := none, pc := c.pc + 1,
                    seq := if c.seq == .wait then .run else c.seq,
                    frozenFrom := if c.seq == .frozen then .run else c.frozenFrom }
  (s.setCore g c).retired g

/-- Cores of a job that have not halted. -/
def State.openSites (s : State) (h : W32) : List Nat := (s.jobSites h).filter (fun g => (s.core g).seq != .halted)

/-- A job is at its commit: it runs, it is not being rolled back, and every core that has not halted has arrived and is
mirrored (R118). -/
def State.atCommit (s : State) (h : Handle) : Bool :=
  let l := s.openSites h.h
  h.opcode == 0x30 && h.state == .running && !l.isEmpty && l.all (fun g => (s.core g).arrived && (s.core g).copied)
    && !((s.err.handling.map (fun x => x.jobs.contains h.h)).getD false)

/-- AUTO images are rewritten after a commit (R409). -/
def State.autoImages (s : State) (h : W32) : State :=
  (s.handles.filter (fun x => x.opcode == 0x25 && x.state == .running && bit x.pkt.p2 0 && x.pkt.p0.setWidth 32 == h)).foldl
    (fun s x => match s.handle h with
      | some r => let w := s.ckptPut r x.pkt.p1
                  if w.2 then w.1 else w.1.complete x.h stContained
      | none => s) s

/-- Jobs with a core on die d. -/
def State.dieJobs (s : State) (d : Nat) : List W32 :=
  (((List.range 16).map (fun i => (s.core (16 * d + i)).handle)).filter (fun h => h != 0#32)).eraseDups

/-- A score-based expulsion is complete once no job is left on the die (R400). -/
def State.expelDone (s : State) (d : Nat) : State :=
  if (s.dieJobs d).isEmpty then (s.retireDie d dieRetired).logEvent srcExpel 0 1 0 127 (locDie d) quad0 else s

/-- The same, and the capability record follows. -/
def State.expelEnd (s : State) (d : Nat) : State := (s.expelDone d).capSync s

/-- The cores of job h on die d move at its commit, first to the reserve that takes the die over, and go on from the mirror
just committed (R400, R403). -/
def State.expelJob (s : State) (d : Nat) (h : W32) (e : Nat) : State :=
  let s0 := s
  let l := (List.range 14).filterMap (fun j => (s.slotSite d j).bind (fun g =>
    if (s.core g).handle == h then (s.carried d j).map (fun x => (x.1, x.2, g)) else none))
  let s := if l.isEmpty then s else s.takeOver d
  let s := l.foldl (fun s x =>
    let m := s.mirror.find x.2.2
    let dst := s.placeFor x.1 d
    let s := s.moveCore x.1 x.2.1 x.2.2 d dst
    match dst.bind (fun t => s.slotSite t.1 t.2), m with
    | some g, some m => s.restoreCore h g e m.image
    | _, _ => s) s
  (s.expelDone d).capSync s0

/-- EPOCH_COMMIT (R118, R218, R225, R228, R400, R409). -/
def execEpochCommit (h : W32) (s : State) : Out :=
  .next (match s.handle h with
    | none => s
    | some x =>
      if !s.atCommit x then s
      else
        let e := x.epoch + 1
        let s := (s.openSites h).foldl (fun s g => s.commitCore g e) s
        let s := s.updHandle h (fun y => { y with epoch := e, commitMs := s.ms })
        let s := s.autoImages h
        let s := s.epochBoundary x.part
        let s := if e % 128 == 0 && s.epochTag x.part then s.cacheDropPart x.part else s
        let s := s.err.expelling.foldl (fun s d => s.expelJob d h e) s
        s.afterEnd)

/-! The error being handled, R385–R388. -/

/-- Dies an error takes out of service when it is handled in domain dm. -/
def ErrItem.dies (e : ErrItem) (dm : Nat) : List Nat :=
  if e.source == srcBaseLost then baseDies (baseOf e.die)
  else if e.source == srcBlockDark then blockDies e.block
  else if e.source == srcHbmLost then []
  else if e.source == srcDieLost || dm != 0 then (if e.die < 384 then [e.die] else [])
  else []

/-- Errors handled together: the one, what escalated it, and what was merged. -/
def Handling.items (h : Handling) : List ErrItem := h.item :: h.mergedItems

/-- Dies and sites that the handling takes out of service. -/
def Handling.failDies (h : Handling) : List Nat :=
  (h.items.flatMap (fun e => e.dies (if e.merged then e.domain else h.domain))).eraseDups
def Handling.failSites (h : Handling) : List Nat :=
  (h.items.filter (fun e => e.source == srcSiteLost && (if e.merged then e.domain else h.domain) == 0)).map (fun e => e.site)

/-- ACTION of R382. -/
def Handling.actionOf (h : Handling) : Nat :=
  if h.domain == 3 then 5
  else if h.domain == 0 then h.acts.getD h.item.site 2
  else if h.item.source == srcBlockDark then 3 else 4

/-- RUNs with a core among sites. -/
def State.jobsOn (s : State) (l : List Nat) : List W32 :=
  ((l.map (fun g => (s.core g).handle)).filter (fun h => h != 0#32)).eraseDups

/-- Sites on which the jobs of a handling run. -/
def State.handledSites (s : State) (h : Handling) : List Nat := h.jobs.flatMap s.jobSites

/-- What fails leaves service, and its logical cores move (R401–R403, R415); which sites take them over, and what was done for
each failed site, are kept. -/
def State.takeOut (s : State) (h : Handling) : State × Handling :=
  let s0 := s
  let s := h.failDies.foldl (fun s d =>
    s.retireDie d (if s.blockOn (blockOf d) then dieRetired else dieDark)) s
  let r := h.failSites.foldl (fun (r : State × Tab Nat) g =>
    (r.1.replaceSite g, if r.2.getD g 0 == 0 then r.2.set g (r.1.siteAction g) else r.2)) (s, h.acts)
  let was := s0.handledSites h
  (r.1.capSync s0, { h with acts := r.2
                            newSites := (h.newSites ++ (r.1.handledSites h).filter (fun g => !was.contains g)).eraseDups })

/-- Queued errors in the cores of jobs being rolled back that do not touch the handled error are merged (R387). -/
def State.mergeQueued (s : State) (h : Handling) : State × Handling :=
  let mine := fun (e : ErrItem) => 3 < e.source && !s.touches h e
    && (s.domSites e.domain e.site e.die e.block e.part).any (fun g =>
      h.jobs.contains (s.core g).handle && (s.core g).handle != 0#32)
  ({ s with err := { s.err with queue := s.err.queue.filter (fun e => !mine e) } },
   { h with mergedItems := h.mergedItems ++ (s.err.queue.filter mine).map (fun e => { e with merged := true }) })

/-- Errors beyond the queue's capacity are admitted as room appears (R389). -/
def State.admitErrs (s : State) : State :=
  let n := 256 - s.err.queue.length
  { s with err := { s.err with queue := s.err.queue ++ s.err.overflow.take n, overflow := s.err.overflow.drop n } }

/-- The record of a handled error (R384). -/
def State.logItem (s : State) (e : ErrItem) (domain action : Nat) (escalated : Bool) (detail : Quad) : State :=
  s.logRec ⟨e.source, 1, domain, action, escalated, e.merged, e.part, e.handle, e.loc, 1, e.addr, detail, e.ms⟩

/-- Handling ends: the records of the error, of those that touched it and of those merged are written (R384, R386, R387,
R411). -/
def State.finishHandling (s : State) (h : Handling) : State :=
  let s := s.logItem h.item h.domain h.action h.escalated ⟨BitVec.ofNat 64 h.consequences, 0#64, 0#64, 0#64⟩
  let s := h.mergedItems.foldl (fun s e =>
    if e.merged then s.logItem e e.domain (if e.domain == 0 then h.acts.getD e.site 2 else 4) false quad0
    else s.logItem e h.domain h.action true quad0) s
  let s := { s with err := { s.err with handling := none } }
  s.admitErrs.afterEnd

/-- The partition that a handling affects: the item's, or the one partition of its jobs (R382). -/
def State.partOfJobs (s : State) (p : Nat) (jobs : List W32) : Nat :=
  if p < 64 then p
  else match (jobs.filterMap (fun h => (s.handle h).map (fun x => x.part))).eraseDups with
    | [q] => q
    | _ => 127

/-- Act on the error being handled (R381, R385, R410 steps 1–3): jobs are stopped, what failed leaves service and its cores
move; in the partition domain, partitions are paused and their RUNs end. -/
def State.actHandling (s : State) (h : Handling) : State :=
  let dm := s.domSites (min h.domain 2) h.item.site h.item.die h.item.block h.item.part
  let sites := (dm ++ h.failDies.flatMap (fun d => (List.range 16).map (fun i => 16 * d + i))).eraseDups
  let jobs := (h.jobs ++ s.jobsOn sites).eraseDups
  let parts := partIds.filter (fun q => (s.prt q).live && (s.partSites q).any (fun g => sites.contains g))
  let r := s.mergeQueued { h with jobs := jobs }
  let s := jobs.foldl (fun s j => s.stopSites (s.jobSites j)) r.1
  let t := s.takeOut { r.2 with item := { h.item with part := s.partOfJobs h.item.part jobs } }
  let s := t.1
  let h := { t.2 with action := t.2.actionOf }
  if h.domain == 3 then
    let ps := (parts ++ jobs.filterMap (fun j => (s.handle j).map (fun x => x.part))).eraseDups
    let s := ps.foldl (fun s q => s.pausePart q .domain (some 5)) s
    let s := jobs.foldl (fun s j => s.endCmd j stContained) s
    s.finishHandling h
  else
    let left := jobs.filter (fun j => match s.handle j with
      | some x => x.state == .running
      | none => false)
    let h := { h with jobs := left, phase := 1 }
    if left.isEmpty then s.finishHandling h
    else { s with err := { s.err with handling := some h } }

/-- A core fault ends its command (R125, R383): the other cores stop and are idle, the faulted one keeps its record. -/
def State.faultEnd (s : State) (h : W32) : State :=
  let s := (s.jobSites h).foldl (fun s g =>
    match (s.core g).seq with
    | .run | .wait | .frozen => (s.setCore g { (s.core g).discard with seq := .idle }).dropTxs g
    | _ => s) s
  s.runEnd h stContained

/-- Cores stopped for an error that ends with a log entry run again (R388). -/
def State.resumeDomain (s : State) (e : ErrItem) : State :=
  let l := (s.domSites e.domain e.site e.die e.block e.part).filter (fun g =>
    (s.core g).part == 127 || (s.prt (s.core g).part).causes.isEmpty)
  s.resumeSites l

/-- ERROR_HANDLING_START (R385): the next contained error, or the one being handled whose handling restarts (R386). -/
def execErrorHandlingStart (s : State) : Out :=
  .next (match s.err.handling with
    | some h => if h.phase == 0 then s.actHandling h else s
    | none =>
      match s.err.queue with
      | [] => s
      | e :: r =>
        let s := ({ s with err := { s.err with queue := r } } : State).admitErrs
        if e.source ≤ 3 then (((s.faultEnd e.handle).logItem e 0 6 false e.detail)).afterEnd
        else if e.source == srcHbmLost then (s.logItem e e.domain 0 false e.detail).resumeDomain e
        else s.actHandling ⟨e, e.domain, false, 0, [], 0, 0, [], [], []⟩)

/-- STORM_END (R389): the queue is empty, and fewer than 16 contained errors have arrived in the last second. -/
def execStormEnd (s : State) : Out :=
  .next (if s.err.storm && s.err.queue.isEmpty && s.err.overflow.isEmpty
      && (s.err.arrivals.filter (fun t => s.ms < t + 1000)).length < 16 then
      let s := { s with err := { s.err with storm := false } }
      let s := s.logEvent srcStorm 0 4 0 127 locNone quad0
      (partIds.foldl (fun s q => s.unpausePart q .storm true) s).startAll
    else s)

/-! The recovery of a job, R410. -/

/-- RECOVERY_DRAIN_END (R410 steps 4 and 5): every surviving core's UNACKED is 0 and one TX_TIMEOUT has passed. -/
def execRecoveryDrainEnd (s : State) : Out :=
  .next (match s.err.handling with
    | none => s
    | some h =>
      if h.phase != 1 || s.therm.hold != 0 || h.jobs.any (fun j => (s.jobSites j).any (fun g => s.unacked g != 0)) then s
      else
        let r := s.mergeQueued h
        let t := r.1.takeOut r.2
        let s := h.jobs.foldl (fun s j => (s.jobSites j).foldl (fun s g => s.recoveryClear g) s) t.1
        { s with err := { s.err with handling := some { t.2 with phase := 2 } } })

/-- A span of lost time (R423): those that overlap it join it, so that no time counts twice. -/
def spanAdd (l : List (Nat × Nat)) (a b : Nat) : List (Nat × Nat) :=
  let hit := l.filter (fun e => e.1 ≤ b && a ≤ e.2)
  l.filter (fun e => !(e.1 ≤ b && a ≤ e.2)) ++ [((hit.map (·.1)).foldl min a, (hit.map (·.2)).foldl max b)]

/-- Partition q has lost the time from t until now (R423). -/
def State.loseTime (s : State) (q t : Nat) : State := s.updPrt q (fun x => { x with lost := spanAdd x.lost t s.ms })

/-- Every command of a job whose state is lost (R414). -/
def State.loseJob (s : State) (h : Handle) : State :=
  let s := (s.idleJob h.h).runEnd h.h stStateLost
  let s := s.loseTime h.part h.startMs
  s.pausePart h.part .stateLost none

/-- Cores of a job that took part in its last commit (R120), with their places in the job. -/
def State.tookPart (s : State) (h : Handle) : List (Nat × Nat) :=
  ((List.range h.lcCount).filterMap (fun i => (s.lsite h.part (h.lcFirst + i)).map (fun g => (i, g)))).filter
    (fun e => s.fld (corePage e.2) EPOCH_REG_W == h.epoch)

/-- The mirrors of the epoch are all there, with sound trailers (R413, R468). -/
def State.mirrorsOk (s : State) (h : Handle) : Bool :=
  (s.tookPart h).all (fun e => match s.mirror.find e.2 with
    | some m => m.epoch == h.epoch && m.trailerOk
    | none => false)

/-- Bytes of partition q that firmware can all reach. -/
def State.fwGet (s : State) (q : Nat) (a : W64) (n : Nat) : Option (Nat × List (Nat × Nat)) :=
  let l := s.fwRun q a n
  if l.2 then some (s.fwVal l.1) else none

/-- A CHECKPOINT image of the epoch that is complete and whose CRC matches (R413, R468). -/
def State.goodImage (s : State) (h : Handle) : Option W64 :=
  h.images.find? (fun a =>
    match s.fwGet h.part a 32, s.fwGet h.part (a + 4096#64) (h.lcCount * 2 ^ 20) with
    | some w, some v => w.1 % 2 ^ 64 == h.epoch && w.1 / 2 ^ 128 % 2 == 1
        && w.1 / 2 ^ 192 == chkCrc 3 (toBytes v.1 (h.lcCount * 2 ^ 20))
    | _, _ => false)

/-- A core's slot of an image. -/
def slotImage (v : Nat) (po : List (Nat × Nat)) : CoreImage :=
  let w := fun i => BitVec.ofNat 64 (v / 2 ^ (64 * i))
  let live : Tab W64 := (List.range 8).map (fun i => (i, w (36 + i)))
  let n := ((List.range 8).map (fun i => 32 * bits (w (36 + i)) 45 28)).sum
  let ad := (List.range 8).flatMap (fun i =>
    (List.range (32 * bits (w (36 + i)) 45 28)).map (fun j => 32 * bits (w (36 + i)) 63 46 + j))
  { pc := (w 0).toNat % 2 ^ 20,
    c := (List.range 31).map (fun i => (i + 1, w (i + 1))),
    k := (List.range 16).map (fun i => (i, BitVec.ofNat 16 (v / 2 ^ (64 * 32 + 16 * i)))),
    live := live,
    regions := toBytes (v / 2 ^ 4096) n,
    poison := (po.filterMap (fun e => if 512 ≤ e.1 then (ad[e.1 - 512]?).map (fun a => a / 8 * 8) else none)).eraseDups }

/-- Restore a job and restart it (R408, R410, R413): its partition's cache lines go (R228), and it is lost where its state
is not there. -/
def State.restoreJob (s : State) (h : Handle) : State :=
  let s := s.cacheDropPart h.part
  let done := fun (s : State) =>
    let s := s.updHandle h.h (fun x => { x with rolledBack := true })
    let s := s.loseTime h.part h.commitMs
    if (s.prt h.part).causes.isEmpty then s else s.stopSites (s.jobSites h.h)
  if h.epoch == 0 then
    match s.fwGet h.part h.pkt.p1 (bits h.pkt.p2 22 0) with
    | none => s.loseJob h
    | some v =>
      done ((List.range h.lcCount).foldl (fun s i => match s.lsite h.part (h.lcFirst + i) with
        | some g => s.launchCore h i g v.1 v.2
        | none => s) s)
  else if s.mirrorsOk h then
    done ((s.tookPart h).foldl (fun s e => match s.mirror.find e.2 with
      | some m => s.restoreCore h.h e.2 h.epoch m.image
      | none => s) s)
  else match s.goodImage h with
  | none => s.loseJob h
  | some a =>
    done ((s.tookPart h).foldl (fun s e =>
      match s.fwGet h.part (a + BitVec.ofNat 64 (4096 + 2 ^ 20 * e.1)) (2 ^ 20) with
      | some v => s.restoreCore h.h e.2 h.epoch (slotImage v.1 v.2)
      | none => s) s)

/-- RECOVERY_RESTORE_DONE (R410 steps 6 and 7): every job is restored and restarted, or its state is lost, and the
handling ends. -/
def execRecoveryRestoreDone (s : State) : Out :=
  .next (match s.err.handling with
    | none => s
    | some h =>
      if h.phase != 2 || s.therm.hold != 0 then s
      else
        let r := s.mergeQueued h
        let t := r.1.takeOut r.2
        let s := h.jobs.foldl (fun s j => (s.jobSites j).foldl (fun s g => s.recoveryClear g) s) t.1
        -- the jobs run again: nothing of this handling keeps their cores FROZEN
        let s := { s with err := { s.err with handling := none } }
        let s := h.jobs.foldl (fun s j => match s.handle j with
          | some x => if x.state == .running then s.restoreJob x else s
          | none => s) s
        s.finishHandling t.2)

end Sys2Proof.Machine
end

