-- ==== Sys2Proof/Machine/Faults.lean ====
section
/-! DEFINITION. What raises faults and what follows them over time: lost management agents (R391), the watchdog and the
security alarm, health scores (R396), score-based expulsion (R398–R400), retests (R405), resets of base dies (R417, R418),
coalesced records (R384) and progress reports (R423). -/

namespace Sys2Proof.Machine

/-- SEQ_WATCHDOG (R397): a sequencer has not answered its spine monitor for 1 ms. -/
def execSeqWatchdog (g : Nat) (s : State) : Out := onUnit (siteOk g) (fun s => s.siteLost g) s

/-- SECURITY_ALARM (R383, R390). -/
def execSecurityAlarm (s : State) : Out := .next (s.uncontained srcSecurity locNone)

/-! Dies out of reach, R356, R391. -/

/-- A host port die is lost (R309, R383): its record, and the link-down of its port. -/
def State.hostLost (s : State) (p : Nat) : State :=
  if (s.port p).lost then s
  else
    let l := partIds.filter (fun q => (s.prt q).live && (s.prt q).bound && (s.prt q).hport == p)
    let part := match l with | [q] => q | _ => 127
    let s := s.logEvent srcHostLost 1 3 0 part (locWord 0x1FFF 0x1FF 0 0x3F 0x3F p 0) quad0
    let s := s.linkGone p
    s.setPort p { s.port p with lost := true, pgood := false, answers := false }

/-! References, R336, R337. -/

def RefState.okOf (x : RefState) (b : Bool) : Bool := if b then x.bOk else x.aOk
def RefState.setOk (x : RefState) (b v : Bool) : RefState := if b then { x with bOk := v } else { x with aOk := v }

/-- Where a die lies, for a record. -/
def locOfDie (die : Nat) : Nat :=
  if die < 384 then locDie die
  else if die < 392 then locNone
  else if die < 496 then locDie (dieOfBase (die - 400) 0)
  else locBlock (die - 500)

def State.clockRec (s : State) (die : Nat) : State := s.logCorrected srcClock 127 (locOfDie die) 0#64 []

/-- A die loses a reference: it goes over to the other while that is good, else it enters holdover (R336, R337). -/
def State.refGone (s : State) (die : Nat) (refB : Bool) : State :=
  let x := (s.ref die).setOk refB false
  if x.holdover || x.useB != refB then s.setRef die x
  else if x.okOf (!refB) then (s.setRef die { x with useB := !refB }).clockRec die
  else (s.setRef die { x with holdover := true }).clockRec die

/-- Dies that the panel has. -/
def State.hasDie (s : State) (die : Nat) : Bool :=
  die < 384 || (384 ≤ die && die < 392 && s.part.hasDome (die - 384)) || (400 ≤ die && die < 496)
    || (500 ≤ die && die < 532 && s.part.hasTransit)

/-- A reference stops for the whole panel: every die with a clock of its own loses it (R336, R393). -/
def State.refStop (s : State) (refB : Bool) : State :=
  ((List.range 532).filter (fun d => s.hasDie d && (s.ref d).okOf refB)).foldl (fun s d => s.refGone d refB) s

/-- A Dome die is lost (R356): a host port, a controller with the reference it drives (R393), or a facility channel. -/
def State.domeLost (s : State) (i : Nat) : State :=
  match i with
  | 0 | 1 | 2 | 3 => s.hostLost i
  | 4 | 5 => let s := s.refStop (i == 5)
             { s with boot := s.boot.setCtl (i - 4) { s.boot.ctl (i - 4) with running := false, powered := false } }
  | _ => { s with fac := { s.fac with ch := s.fac.ch.set (i - 6) { s.fac.ch.getD (i - 6) FacChan.reset with up := false, base := true } } }

/-- A die by its number (compute 0–383, Dome 384–391, base 400–495, photonic 500–531) is lost on both nets (R397). -/
def State.unreachable (s : State) (die : Nat) : State :=
  if die < 384 then s.dieLost die
  else if die < 392 then s.domeLost (die - 384)
  else if die < 496 then s.baseLost (die - 400)
  else s.photLost (die - 500)

/-- MGMT_AGENT_LOST (R391): an agent lost on one net is a corrected error; a die that neither net reaches any more is lost. -/
def execMgmtAgentLost (die : Nat) (netA netB : Bool) (s : State) : Out :=
  onUnit (s.hasDie die) (fun s =>
    let was := s.err.agents.getD die 0
    let now := was ||| (b2n netA + 2 * b2n netB)
    let s := { s with err := { s.err with agents := s.err.agents.set die now } }
    if now == was then s
    else if now == 3 then s.unreachable die
    else s.logCorrected srcMgmtPath 127 (locOfDie die) 0#64 []) s

/-! Scores, R396–R400. -/

def State.expelScore (s : State) : Nat := s.fld (domePage 4) ERR_CFG_EXPEL_SCORE

/-- HEALTH_SCORE_HOURLY (R383, R396, R399): every event is an hour older, and a die on probation whose score has risen
enough is COUNTED again. -/
def execHealthScoreHourly (s : State) : Out :=
  let ev := (s.alm.events.map (fun (e : Nat × Nat × Nat) => (e.1, e.2.1, e.2.2 + 1))).filter (fun (e : Nat × Nat × Nat) => decay168 e.2.2 != 0)
  let s := { s with
    alm := { s.alm with events := ev }
    err := { s.err with
      arith := (s.err.arith.map (fun e => (e.1, e.2 + 1))).filter (fun e => e.2 < 24)
      spUe := (s.err.spUe.map (fun e => (e.1, e.2.1, e.2.2 + 1))).filter (fun e => e.2.2 < 24) } }
  .next ((List.range 384).foldl (fun s d =>
    if s.dieState d == dieProbation && s.expelScore + 100 ≤ s.score d then
      let s := s.setDie d dieCounted
      { s with err := { s.err with waiting := setDel s.err.waiting d } }
    else s) s)

/-- The block has had no score-based expulsion in the last 10 min (R398). -/
def State.blockFree (s : State) (b : Nat) : Bool := !s.err.expels.any (fun (e : Nat × Nat) => e.1 == b && decide (s.ms < e.2 + 600000))

/-- The limits of R398 allow one in this block now. -/
def State.expelFree (s : State) (b : Nat) : Bool :=
  s.blockFree b && (s.err.expels.filter (fun (e : Nat × Nat) => decide (s.ms < e.2 + 3600000))).length < 4

/-- SCORE_EXPULSION (R398–R400): deferred without a reserve, held back by the limit lowest score first, else performed at
the next commit of each job on the die, or at once when it carries none. -/
def execScoreExpulsion (d : Nat) (s : State) : Out :=
  onUnit (decide (d < 384)) (fun s =>
    if s.err.expelling.contains d then s.expelEnd d
    else if !s.dieCounts d || s.expelScore ≤ s.score d then s
    else
      let b := blockOf d
      if (s.reserveOf b).isNone then
        if s.dieState d == dieProbation then s
        else (s.setDie d dieProbation).logEvent srcExpelDeferred 0 1 0 127 (locDie d) quad0
      else
        let lower := s.err.waiting.any (fun w => w != d && s.score w < s.score d && s.expelFree (blockOf w)
          && (s.reserveOf (blockOf w)).isSome)
        if !s.expelFree b || lower then
          { s.setDie d dieProbation with err := { s.err with waiting := setIns s.err.waiting d } }
        else
          let s := { s with err := { s.err with
            waiting := setDel s.err.waiting d
            expels := (s.err.expels.filter (fun (e : Nat × Nat) => decide (s.ms < e.2 + 3600000))) ++ [(b, s.ms)]
            expelling := setIns s.err.expelling d } }
          s.expelEnd d) s

/-! Retests, R405. -/

def retestDie : RetestUnit → Nat
  | .site g => dieOfSite g
  | .die d => d

def retestKey : RetestUnit → Nat
  | .site g => almKey almRetest g
  | .die d => almKey almRetest (8192 + d)

/-- The unit waits for a retest, or is in one. -/
def State.retestIs (s : State) (failed : Bool) : RetestUnit → Bool
  | .site g => s.siteState g == (if failed then siteFailedField else siteRetest)
  | .die d => s.dieState d == (if failed then dieRetired else dieRetest) && (!failed || (s.dieParts d).isEmpty)

/-- RETEST_START: in the dew state, not after three failures, and not within 24 h of one. -/
def execRetestStart (u : RetestUnit) (s : State) : Out :=
  onUnit (RetestUnit.ok u) (fun s =>
    if s.retestIs true u && s.flag (spinePage (retestDie u)) TH_STATUS_DEW && s.almVal (retestKey u) 0 < 3
        && (s.almVal (retestKey u) 0 == 0 || s.err.retestAt.getD (retestKey u) 0 + 86400000 ≤ s.ms) then
      match u with
      | .site g => s.setSite g siteRetest
      | .die d => s.setDie d dieRetest
    else s) s

/-- A site that counts again takes a free slot of its die (R24, R213). -/
def State.giveSlot (s : State) (g : Nat) : State :=
  let k := spinePage (dieOfSite g)
  match (List.range 14).find? (fun j => !s.flag k (SLOT_MAP_VALID j)) with
  | some j => (s.setFld k (SLOT_MAP_VALID j) 1).setFld k (SLOT_MAP_SITE j) (g % 16)
  | none => s

/-- Counted sites of the row of site g. -/
def State.rowCount (s : State) (g : Nat) : Nat :=
  ((List.range 8).filter (fun i => s.siteState (g / 8 * 8 + i) == siteCounted)).length

/-- RETEST_DONE. -/
def execRetestDone (u : RetestUnit) (pass : Bool) (s : State) : Out :=
  onUnit (RetestUnit.ok u) (fun s =>
    if !s.retestIs false u then s
    else if pass then
      let s0 := s
      let s := match u with
        | .site g =>
          if s.rowCount g < 7 then (s.setSite g siteCounted).giveSlot g else s.setSite g siteSpare
        | .die d =>
          let s := s.setDie d dieCounted
          let s := { s with alm := { s.alm with events := s.alm.events.filter (fun (e : Nat × Nat × Nat) => e.1 != d) ++ [(d, 300, 0)] } }
          s.chooseReserve (blockOf d)
      let s := s.logEvent srcReinstate 0 (match u with | .site _ => 0 | .die _ => 1) 0 127
        (match u with | .site g => locSite g | .die d => locDie d) quad0
      s.capSync s0
    else
      let s := match u with
        | .site g => s.setSite g siteFailedField
        | .die d => s.setDie d dieRetired
      let s := { s with err := { s.err with retestAt := s.err.retestAt.set (retestKey u) s.ms } }
      s.setAlm (retestKey u) (s.almVal (retestKey u) 0 + 1)) s

/-! Resets of base dies, R417, R418. -/

/-- Slot maps and hole maps of a spine, which firmware writes anew after a reset of it. -/
def spineKept (off : Nat) : Bool := off == SLOT_MAP 0 || off == SLOT_MAP 8 || off == MC_HOLES_ROW_HOLES.off

/-- A compute die with its spine and its remote-data cache is reset. Its arithmetic clocks run at the code of its region (R339).
-/
def State.dieReset (s : State) (d : Nat) : State :=
  let s := (List.range 16).foldl (fun s i => s.coreReset (16 * d + i)) s
  let k := spinePage d
  let s := { s with regs := s.regs.filter (fun e => e.1 < k || k + 2 ^ 47 ≤ e.1 || spineKept (e.1 - k)) }
  let s := (s.setFld k CLK_STATUS_F_CODE (s.fld (domePage 4) (FREQ_REGION (blockOf d)))).setRef d (s.ref d)
  { s with fab := { s.fab with cache := s.fab.cache.erase d }, chk := s.chk.erase d }

/-- Packets in the routers of base die u are dropped and counted (R418). -/
def State.dropBase (s : State) (u : Nat) : State :=
  let here := fun (k : Packet) => match k.loc with
    | .injq r => if baseOf r == u then some r else none
    | .router r _ => if baseOf r == u then some r else none
    | .link r _ _ _ => if baseOf r == u then some r else none
    | _ => none
  s.fab.packets.foldl (fun s k => match here k with
    | some r => s.dropAt r k.id
    | none => s) s

/-- Full reset of base die u, steps 1–3 of R418. -/
def State.baseReset (s : State) (u : Nat) : State :=
  let s0 := s
  let s := s.setAlm (almKey almBase u) 1
  let s := (baseDies u).foldl (fun s r => s.setHole r 1) s
  let s := { s with err := { s.err with resetting := setIns s.err.resetting u } }
  let s := if s.sliced u then partIds.foldl (fun s q => s.stopSites (s.partSites q)) s else s
  let s := if u % 3 == 1 && s.part.hasTransit then s.closeBlock (u / 3) else s
  (s.routeUpdate.dropBase u).capSync s0

/-- ROUTER_LOGIC_ERROR (R417, R418): a router-preserving reset, and on recurrence a full one. -/
def execRouterLogicError (u : Nat) (s : State) : Out :=
  onUnit (decide (u < 96)) (fun s =>
    if s.baseState u != 0 then s
    else if s.err.preserved.contains u then s.baseReset u
    else
      let s := { s with err := { s.err with preserved := setIns s.err.preserved u } }
      ((baseDies u).filter (fun d => s.dieState d == dieRetired)).foldl (fun s d => s.dieReset d) s) s

/-- Cores of partitions that no cause pauses run again. -/
def State.resumeParts (s : State) : State :=
  partIds.foldl (fun s q => if (s.prt q).live && (s.prt q).causes.isEmpty then s.resumeSites (s.partSites q) else s) s

/-- The routers of base die u come into service: out of reset, links trained, shares written (R325, R418). -/
def State.baseUp (s : State) (u : Nat) : State :=
  let s := { s with regs := s.regs.eraseRange (basePage u) (basePage u + 2 ^ 47) }
  let s := (baseDies u).foldl (fun s r => (s.setHole r 0).setFld (routerPage r) RT_CFG_INJ_STOP 0) s
  let s := (baseDies u).foldl (fun s r => (List.range 4).foldl (fun s p =>
    match nbr r p with
    | some q => if s.hole q || (crosses r p && s.fab.isolated) then s else s.linkRise r p
    | none => s) s) s
  partIds.foldl (fun s q => if (s.prt q).live && (s.diesOf q).any (fun d => baseOf d == u) then s.writeShares q else s) s

/-- BASE_DIE_RESET_DONE (R418). -/
def execBaseDieResetDone (u : Nat) (ok : Bool) (s : State) : Out :=
  onUnit (decide (u < 96)) (fun s =>
    if !s.err.resetting.contains u then s
    else
      let s0 := s
      let s := { s with err := { s.err with resetting := setDel s.err.resetting u, preserved := setDel s.err.preserved u } }
      if ok then
        let s := ((s.setAlm (almKey almBase u) 0).baseUp u).routeUpdate
        let s := if u % 3 == 1 then s.openBlock (u / 3) else s
        s.resumeParts.capSync s0
      else (s.baseLost u).resumeParts) s

/-! Records, R384, R423. -/

/-- LOG_COALESCE_FLUSH (R384): the like errors of the second are logged as one record. -/
def execLogCoalesceFlush (source loc : Nat) (s : State) : Out :=
  .next (match s.err.coalesced.find? (fun e => e.1 == source && e.2.1 == loc) with
    | none => s
    | some e =>
      let s := { s with err := { s.err with coalesced := s.err.coalesced.filter (fun e => !(e.1 == source && e.2.1 == loc)) } }
      if e.2.2 == 0 then s
      else s.logRec ⟨source, 0, 0, 0, false, false, 127, 0#32, loc, e.2.2, 0#64, quad0, s.ms⟩)

/-- PROGRESS_REPORT (R423): the share of each partition over the last 30 days; with no active time the share is open, and time
lost beyond the active time leaves it 0 (log entry 68). -/
def execProgressReport (s : State) : Out :=
  .next (partIds.foldl (fun s q =>
    let x := s.prt q
    if !x.live then s
    else
      let a := x.activeMs + x.days.sum
      let from30 := s.ms - 2592000000
      let lost := x.lost.filter (fun e => from30 < e.2)
      let l := (lost.map (fun e => e.2 - max e.1 from30)).sum
      let share := if a == 0 then Config.freeW64 s.free else BitVec.ofNat 64 ((a - l) * 1000000 / a)
      let s := if a == 0 then { s with free := s.free + 1 } else s
      let s := s.setPrt q { x with activeMs := 0, lost := lost, days := (x.activeMs :: x.days).take 29 }
      s.logEvent srcProgress 0 3 0 q locNone ⟨share, BitVec.ofNat 64 a, BitVec.ofNat 64 l, 0#64⟩) s)

end Sys2Proof.Machine
end

