-- ==== Sys2Proof/Machine/Clocks.lean ====
section
/-! DEFINITION. References and holdover (R336, R337), row clocks (R340, R341), synchronised frequency changes
(R343–R346), the power command links and the channels of the power module (R347–R355), trips and dark blocks (R356, R357). -/

namespace Sys2Proof.Machine

/-! What is lost with a rail, R209, R356. -/

/-- A site whose supply went: its scratchpad, registers and engines are empty and it does not run. Whose core it was is
firmware's knowledge and stays. -/
def State.siteDead (s : State) (g : Nat) : State :=
  let c := s.core g
  let s := s.zeroSp g
  let s := s.setCore g { c.discard with c := [], k := [], mac := Mac.reset, vec := Vec.reset, edge := Edge.reset, dma := Dma.reset,
                                        sp := Sp.reset, stall := none,
                                        seq := if c.seq == .halted then .halted else .frozen, frozenFrom := .idle }
  s.dropTxs g

def State.railLost (s : State) (r : Rail) : State :=
  match r with
  | .row d h => (List.range 8).foldl (fun s i => s.siteDead (16 * d + 8 * h + i)) s
  | .spine d => { s with fab := { s.fab with cache := s.fab.cache.erase d }, chk := s.chk.erase d }
  | .base u _ => s.losePackets u
  | .stack n _ => s.zeroRange (hbmBase (64 * n)) (hbmBase (64 * n + 64))
  | _ => s

/-- A channel loses its output. -/
def State.chOff (s : State) (c : Nat) : State :=
  let x := s.chan c
  if !x.on then s else (s.setChan c { x with on := false, regulated := false }).railLost (railOf c)

/-- A die whose supply rises begins its always-on count (R342). -/
def State.aonStart (s : State) (c : Nat) : State :=
  let at0 := fun (k : Nat) => { s with power := { s.power with aonAt := s.power.aonAt.set k s.power.aon } }
  if (s.chan c).on then s
  else match railOf c with
    | .spine d => at0 d
    | .dome i r => if r == 0 then at0 (384 + i) else s
    | _ => s

/-- AON_COUNT of a compute die, and the counters of the management dies 388 and 389 (R342). -/
def State.aonCount (s : State) (die : Nat) : Nat := s.power.aon - s.power.aonAt.getD die 0

/-- A channel is raised at its nominal voltage, a row at a given one. -/
def State.chOn (s : State) (c mv : Nat) : State :=
  let s := s.aonStart c
  let r := railOf c
  (s.setChan c { s.chan c with on := true, tripped := false, retention := false, regulated := true,
                               mv := if r.nominal == 0 then mv else r.nominal,
                               ilim := r.limit }).rowView c

/-! Frequency and voltage, R339, R343, R346. -/

/-- The voltage a row needs for a code: its table's point and 10 mV, rounded up to 5 mV (R346). -/
def rowVolts (d h code : Nat) : Nat := (Config.rowVolt (2 * d + h) code + 10 + 4) / 5 * 5

/-- The region of a compute or Dome die, and its code in effect. -/
def regionOf (die : Nat) : Nat := if die < 384 then blockOf die else die - 352

def State.regionCode (s : State) (r : Nat) : Nat := s.fld (domePage 4) (FREQ_REGION r)

def State.dieCode (s : State) (die : Nat) : Nat :=
  if die < 384 then s.fld (spinePage die) CLK_STATUS_F_CODE else s.regionCode (regionOf die)

/-- A field that M0 and M1 both show. -/
def State.setDome (s : State) (F : Fld) (v : Nat) : State := (s.setFld (domePage 4) F v).setFld (domePage 5) F v

/-! References, R336, R337. -/

/-- The preferred reference: CLK_CFG.REF_PREF of a compute die; REFA where a die has no such register. -/
def State.prefB (s : State) (die : Nat) : Bool := die < 384 && s.flag (spinePage die) CLK_CFG_REF_PREF

/-- REF_LOST (R336, R337). -/
def execRefLost (die : Nat) (refB : Bool) (s : State) : Out :=
  onUnit (refDieOk die && s.hasDie die) (fun s => s.refGone die refB) s

/-- REF_RESTORE (R336): a reference has been good for 10 ms; when it is the preferred one the die switches back to it. -/
def execRefRestore (die : Nat) (refB : Bool) (s : State) : Out :=
  onUnit (refDieOk die && s.hasDie die) (fun s =>
    let x := (s.ref die).setOk refB true
    if !x.holdover && x.useB != refB && s.prefB die == refB then (s.setRef die { x with useB := refB }).clockRec die
    else s.setRef die x) s

/-- The die locks to the preferred reference while that is good (R336). -/
def State.preferRef (s : State) (die : Nat) : State :=
  let x := s.ref die
  if !x.holdover && x.useB != s.prefB die && x.okOf (s.prefB die) then (s.setRef die { x with useB := s.prefB die }).clockRec die
  else s

/-- HOLDOVER_EXIT (R337). -/
def execHoldoverExit (die : Nat) (refB : Bool) (s : State) : Out :=
  onUnit (refDieOk die && s.hasDie die) (fun s =>
    let x := s.ref die
    if x.holdover then s.setRef die { (x.setOk refB true) with holdover := false, useB := refB } else s) s

/-! Row clocks, R340, R341, R376. -/

/-- Sites of a row. -/
def rowSites (d : Nat) (south : Bool) : List Nat := (List.range 8).map (fun i => 16 * d + (if south then 8 else 0) + i)

/-- A maintenance transfer of R195 runs in the core of site g: a row under test or held, a migration, a zeroisation, a
write-back that waits. -/
def State.maintBusy (s : State) (g : Nat) : Bool :=
  let x := (s.core g).sp
  x.hold.isSome || x.mig.isSome || !x.scrub.isEmpty || s.flag (corePage g) SP_STATUS_ZERO_BUSY

/-- A request at the core of site g is in progress or waits: writes of a transaction that is open, and packets at its endpoint
(R340). -/
def State.windowBusy (s : State) (g : Nat) : Bool :=
  s.fab.packets.any (fun k => k.loc == .endpoint && s.epCore k.h == some g)
    || (match s.slotOf g with
      | some j => s.fab.rxs.any (fun x => x.drouter == dieOfSite g && x.dep == j && !x.closed)
      | none => false)

/-- Nothing in the row needs its clock: every site idle, no request in progress at a bank of WINDOW, no maintenance
transfer (R340). -/
def State.rowIdle (s : State) (d : Nat) (south : Bool) : Bool :=
  (rowSites d south).all (fun g => s.coreIdle g && !s.maintBusy g && !s.windowBusy g)

/-- CLK_ROW_STOP. -/
def execClkRowStop (d : Nat) (south : Bool) (s : State) : Out :=
  onUnit (dieOk d) (fun s =>
    let k := spinePage d
    if s.flag k CLK_CFG_FORCE_RUN || s.fld k CLK_CFG_IDLE_US == 0 || !s.rowIdle d south then s
    else s.setFld k (rowRun south) 0) s

/-- CLK_ROW_WAKE: work for the row; the clocks of a panel in thermal hold stay stopped. -/
def execClkRowWake (d : Nat) (south : Bool) (s : State) : Out :=
  onUnit (dieOk d) (fun s => s.rowWake d south) s

/-! Synchronised frequency changes, R344, R345. -/

/-- The dies that an ARM reaches: those of regions that are not dark and have their supply. -/
def State.freqDies (s : State) : List Nat :=
  (List.range 384).filter (fun d => !s.power.darkBlocks.contains (blockOf d) && (s.chan (spineCh d)).on)
    ++ ((List.range 8).filter (fun i => s.part.hasDome i && (s.chan (1600 + 2 * i)).on)).map (fun i => 384 + i)

def State.setFreq (s : State) (f : Option FreqChange) : State := { s with power := { s.power with freq := f } }

/-- The controller arms a change (R344, step 1). -/
def State.freqBegin (s : State) (id : Nat) (targets : List Nat) (undo : Option (Nat × Nat)) : State :=
  let s := s.setFreq (some ⟨id, targets, s.freqDies, [], [], [], [], 1, undo⟩)
  ((s.setDome FREQ_STATUS_CHANGE_ID id).setDome FREQ_STATUS_STATE 1).setDome FREQ_STATUS_LATE 0

/-- Once no die is armed any more, the next change in the queue is armed. -/
def State.freqNext (s : State) : State :=
  match s.power.freq with
  | some f =>
    if f.state == 1 || !f.armed.isEmpty then s
    else
      let s := s.setFreq none
      match s.power.freqQueue with
      | [] => s
      | t :: r =>
        if s.therm.hold != 0 then s
        else ({ s with power := { s.power with freqQueue := r } }).freqBegin
          ((s.fld (domePage 4) FREQ_STATUS_CHANGE_ID + 1) % 65536) t.1 t.2
  | none => s

/-- Firmware asks for a change: now, or after the one in progress, unless the same already waits. -/
def State.freqAsk (s : State) (t : List Nat) (undo : Option (Nat × Nat)) : State :=
  if s.power.freq.isNone && s.therm.hold == 0 then s.freqBegin ((s.fld (domePage 4) FREQ_STATUS_CHANGE_ID + 1) % 65536) t undo
  else if s.power.freqQueue.contains (t, undo) then s
  else { s with power := { s.power with freqQueue := s.power.freqQueue ++ [(t, undo)] } }

/-- One region's target, the others keeping theirs. -/
def oneRegion (r v : Nat) : List Nat := (List.range 40).map (fun i => if i == r then v else 0)

/-- The change is abandoned (R344): no COMMIT is sent, and FREQ_STATUS.LATE names the regions that are not ready. A region that
refused the change that was to mend it is set back (R345). -/
def State.freqAbandon (s : State) : State :=
  match s.power.freq with
  | some f =>
    if f.state != 1 then s
    else
      let late := popMask 40 (fun r => f.dies.any (fun d => regionOf d == r && !f.ready.contains d))
      let s := ((s.setFreq (some { f with state := 3 })).setDome FREQ_STATUS_STATE 3).setDome FREQ_STATUS_LATE late
      let s := match f.undo with
        | some (r, old) => if f.refused.any (fun d => regionOf d == r) then s.freqAsk (oneRegion r old) none else s
        | none => s
      s.freqNext
  | none => s

/-- The code is one the region accepts (R343). -/
def codeOk (r v : Nat) : Bool := v == 0 || (if r < 32 then 8 ≤ v && v ≤ 0x28 else 0x10 ≤ v && v ≤ 0x20)

/-- Every row of a compute die is in regulation at the voltage of code v, at most 0.90 V (R346). A die that is RETIRED and has
its rows switched off has no arithmetic clock to change (log entry 70). -/
def State.rowsAt (s : State) (d v : Nat) : Bool :=
  (List.range 2).all (fun h =>
    let x := s.chan (rowCh d h)
    (s.dieState d == dieRetired && !x.on)
      || (rowVolts d h v ≤ 900 && x.on && x.regulated && !x.tripped && !x.retention && rowVolts d h v ≤ x.mv))

/-- What a die answers to ARM (R343, R344, R346): a die in holdover makes the whole change fail, and every row must be in
regulation at the voltage of the target. -/
def State.armOk (s : State) (die v : Nat) : Bool :=
  codeOk (regionOf die) v && !(s.ref die).holdover && (384 ≤ die || v == 0 || s.rowsAt die v)

/-- A block region may run above 800 MHz (R343, R365): every compute die of it reads 80 °C or below, and the energy budgets
are not scaled down to the ceiling (R331; log entry 70). -/
def State.boostOk (s : State) (r : Nat) : Bool :=
  (blockDies r).all (fun d => (s.therm.unit.getD d Sensed.reset).value ≤ 1280)
    && partIds.all (fun q => !(s.prt q).live || (s.prt q).beff == (s.prt q).budget)

/-- Firmware may arm these targets (R343, R346, R355, R365): a raise needs a master on its link and every row in regulation
at its new voltage, and above 800 MHz the temperatures and the budgets must allow it. -/
def State.targetsOk (s : State) (t : List Nat) : Bool :=
  t.length == 40 && (List.range 40).all (fun r =>
    let v := t.getD r 0
    v == 0 || v ≤ s.regionCode r
      || ((s.power.pcl.getD (if r < 32 then chLink (50 * r) else chLink (1600 + 2 * (r - 32))) Pcl.reset).master.isSome
        && (r ≥ 32 || ((blockDies r).all (fun d => s.rowsAt d v) && (v ≤ 0x20 || s.boostOk r)))))

/-- FREQ_ARM (R344, step 2): a die receives ARM over the management network, which restarts its row clocks (R340). Targets that firmware has newly chosen begin a change; while another is
armed they wait. -/
def execFreqArm (die change : Nat) (targets : List Nat) (s : State) : Out :=
  onUnit (die < 392 && s.hasDie die) (fun s =>
    let s := match s.power.freq with
      | none =>
        if s.therm.hold == 0 && change < 65536 && s.fwRuns && s.targetsOk targets then
          let s := s.freqBegin change targets none
          { s with therm := { s.therm with asked := (List.range 40).foldl (fun (t : Tab Nat) r =>
              if targets.getD r 0 == 0 then t else t.set r (targets.getD r 0)) s.therm.asked } }
        else s
      | some f => if f.id != change && s.targetsOk targets then s.freqAsk targets none else s
    match s.power.freq with
    | none => s
    | some f =>
      if f.id != change || f.targets != targets || f.state != 1 || !f.dies.contains die || f.armed.contains die then s
      else
        let v := targets.getD (regionOf die) 0
        let s := if die < 384 then (s.rowWake die false).rowWake die true else s
        let s := s.setRef die { s.ref die with standby := if v == 0 then s.dieCode die else v, yes := s.armOk die v }
        let s := s.setFreq (some { f with armed := f.armed ++ [die] })
        if die < 384 then
          (s.setFld (spinePage die) CLK_STATUS_ARMED 1).setFld (spinePage die) CLK_STATUS_F_ARMED (s.ref die).standby
        else s) s

/-- FREQ_ACK (R344, step 3). -/
def execFreqAck (die : Nat) (s : State) : Out :=
  onUnit (die < 392 && s.hasDie die) (fun s =>
    match s.power.freq with
    | some f =>
      if f.state != 1 || !f.armed.contains die || f.ready.contains die || f.refused.contains die then s
      else if (s.ref die).yes then s.setFreq (some { f with ready := f.ready ++ [die] })
      else s.setFreq (some { f with refused := f.refused ++ [die] })
    | none => s) s

/-- FREQ_COMMIT_DEADLINE (R344, step 4; R359). -/
def execFreqCommitDeadline (s : State) : Out :=
  .next (match s.power.freq with
    | some f =>
      if f.state != 1 then s
      else if f.dies.all (fun d => f.ready.contains d) && s.therm.hold == 0 then
        (s.setFreq (some { f with state := 2 })).setDome FREQ_STATUS_STATE 2
      else s.freqAbandon
    | none => s)

/-- FREQ_COMMIT (R344, step 5). -/
def execFreqCommit (die : Nat) (s : State) : Out :=
  onUnit (die < 392 && s.hasDie die) (fun s =>
    match s.power.freq with
    | some f =>
      if f.state == 2 && f.armed.contains die && !f.committed.contains die then
        s.setFreq (some { f with committed := f.committed ++ [die] })
      else s
    | none => s) s

/-- A die's count N (R344, steps 5 and 6; R345, R359): it switches, or keeps its frequency; one that should have switched
is set right by a further change. -/
def State.freqSwitch (s : State) (die : Nat) : State :=
  match s.power.freq with
  | none => s
  | some f =>
    if f.state == 1 || !f.armed.contains die then s
    else
      let r := regionOf die
      let v := f.targets.getD r 0
      let x := s.ref die
      let refuse := x.holdover && 0x27 < v
      let go := f.state == 2 && f.committed.contains die && !refuse
      let old := s.dieCode die
      let s := if go && v != 0 then
          let s := if die < 384 then s.setFld (spinePage die) CLK_STATUS_F_CODE v else s
          s.setDome (FREQ_REGION r) v
        else s
      let s := if die < 384 then
          let k := spinePage die
          let s := if go then s.setFld k CLK_STATUS_CHANGE_ID f.id else s
          (s.setFld k CLK_STATUS_ARMED 0).setFld k CLK_STATUS_F_ARMED 0
        else s
      let s := s.setRef die { s.ref die with standby := 0, yes := false }
      let s := s.setFreq (some { f with armed := f.armed.filter (fun d => d != die) })
      let s := if f.state == 2 && !go && v != 0 then
          (if refuse then s.freqAsk (oneRegion r old) none else s.freqAsk (oneRegion r v) (some (r, old))) else s
      s.freqNext

/-- FREQ_SWITCH: arithmetic clocks that thermal hold has stopped switch when they restart (R359). -/
def execFreqSwitch (die : Nat) (s : State) : Out :=
  onUnit (die < 392 && s.hasDie die) (fun s =>
    if 2 ≤ s.therm.hold && die < 384 then s else s.freqSwitch die) s

/-! Trips, R354, R356. -/

/-- Firmware's handling of a rail that tripped or was switched off. -/
def State.railOutcome (s : State) (r : Rail) : State :=
  match r with
  | .row d _ => s.dieLost d
  | .spine d => s.dieLost d
  | .base u _ => s.baseLost u
  | .stack n _ => s.slicesLost ((List.range 64).map (fun p => 64 * n + p)) (n / 2)
  | .photonic b _ => s.photLost b
  | .dome i _ => s.domeLost i

/-- CHANNEL_TRIP (R354): the output goes off until firmware enables it again. -/
def execChannelTrip (ch : Nat) (s : State) : Out :=
  onUnit (s.chFitted ch) (fun s =>
    if !(s.chan ch).on then s else (s.chOff ch).setChan ch { (s.chOff ch).chan ch with tripped := true }) s

/-- DROOP_STRETCH (R341, R355): a stretch is counted; an undervoltage event shows a trip that no master was told of. -/
def execDroopStretch (d : Nat) (south undervoltage : Bool) (s : State) : Out :=
  onUnit (dieOk d) (fun s =>
    let s := s.addSat (spinePage d) (if south then CLK_DROOP_SOUTH else CLK_DROOP_NORTH) 1
    let c := rowCh d (b2n south)
    if undervoltage && (s.chan c).tripped then s.railOutcome (railOf c) else s) s

/-- The duty of a core is halved, with a floor of 7 (R331, R354). -/
def State.halveDuty (s : State) (g : Nat) : State :=
  let k := corePage g
  [SEQ_THROTTLE_DUTY, MAC_CFG_DUTY, VEC_CFG_DUTY, EDGE_CFG_DUTY].foldl (fun s F =>
    s.setFld k F (max 7 (s.fld k F / 2))) s

/-- The block that a unit lies in; none for a Dome die. -/
def segBlock (u : Nat) : Option Nat :=
  if u < 384 then some (blockOf u)
  else if 600 ≤ u then some ((u - 600) / 2)
  else if 500 ≤ u then some (u - 500)
  else if 400 ≤ u then some ((u - 400) / 3)
  else none

/-- A block whose input stage has collapsed (R31, R357, R415): its channels, its routers, its engine, its stacks and what
its cores and packets held are gone; routes are computed anew, and BLOCK_DARK is raised. -/
def State.goDark (s : State) (b : Nat) : State :=
  if s.power.darkBlocks.contains b then s
  else
    let s0 := s
    let s := { s with power := { s.power with darkBlocks := setIns s.power.darkBlocks b } }
    let s := (List.range 50).foldl (fun s k => s.chOff (50 * b + k)) s
    let inside := fun (k : Packet) => match k.loc with
      | .injq r | .router r _ | .link r _ _ _ => blockOf r == b
      | .engine e _ | .wave e _ _ => e == b
      | .endpoint => blockOf k.h.drouter == b
    let s := { s with fab := { s.fab with packets := s.fab.packets.filter (fun k => !inside k) } }
    let s := (blockDies b).foldl (fun s r => (s.setHole r 1).setDie r dieDark) s
    let s := (List.range 3).foldl (fun s i => (s.setAlm (almKey almBase (3 * b + i)) 3).mirrorsLost (3 * b + i)) s
    let s := if s.part.hasTransit then (s.setAlm (almKey almPhot b) 3).closeBlock b else s
    let s := { s with panel := { s.panel with blockOnline := s.panel.blockOnline &&& ~~~(1#32 <<< b) }
                      boot := { s.boot with segs := s.boot.segs.filter (fun u => segBlock u != some b) } }
    let s := s.recordPartners
    let s := s.blockErr srcBlockDark b (locBlock b) (dieAt (3 * (b % 8)) (4 * (b / 8)))
    let s := s.slicesOut (((List.range 128).map (fun i => 128 * b + i)).filter (fun k => s.part.hasStack (k / 64))) b
    let s := match s.power.freq with
      | some f => (s.setFreq (some { f with armed := f.armed.filter (fun d => 384 ≤ d || blockOf d != b) })).freqNext
      | none => s
    s.routeUpdate.capSync s0

/-- BLOCK_DARK (R357). -/
def execBlockDark (b : Nat) (s : State) : Out := onUnit (blockOk b) (fun s => s.goDark b) s

/-! The power command links, R350–R355. -/

def State.pcl (s : State) (n : Nat) : Pcl := s.power.pcl.getD n Pcl.reset
def State.setPcl (s : State) (n : Nat) (x : Pcl) : State := { s with power := { s.power with pcl := s.power.pcl.set n x } }

/-- Frame types of R352. -/
def pclSetVType : Nat := 1
def pclEnableType : Nat := 2
def pclRetainType : Nat := 3
def pclIlimType : Nat := 4
def pclReadType : Nat := 5
def pclClaimType : Nat := 6
def pclReleaseType : Nat := 8

/-- RETAIN's value: mV, 2^16 for enter, 2^17 for the region form. -/
def retainVal (mv : Nat) (region enter : Bool) : Nat := mv + 65536 * b2n enter + 131072 * b2n region

/-- The master has been silent for 10 ms, has released the link, or is the one that asks (R355); a die may claim a link that
it has released itself once 10 ms have passed. -/
def State.claimOk (s : State) (n m : Nat) : Bool :=
  let late := (s.pcl n).beat + 250000 ≤ s.power.aon
  match (s.pcl n).master with
  | none => (s.pcl n).released != some m || late
  | some x => x == m || late

/-- The verdict of the power module on a frame: 0 acknowledged, else the reason of its NAK (R352, R355). -/
def State.verdict (s : State) (n m type ch val : Nat) : Nat :=
  if type == pclClaimType then (if s.claimOk n m then 0 else 4)
  else if (s.pcl n).master != some m then 4
  else if type == pclReleaseType then 0
  else if type == pclRetainType && val / 131072 == 1 then
    (if 31 < ch || val % 65536 < 550 || 650 < val % 65536 then 1 else 0)
  else if !s.chFitted ch then 2
  else
    let r := railOf ch
    if type == pclSetVType then
      (if (s.chan ch).tripped then 3
       else if r.nominal == 0 then (if 550 ≤ val && val ≤ 900 && val % 5 == 0 then 0 else 1)
       else if val == r.nominal then 0 else 1)
    else if type == pclRetainType then
      (if (s.chan ch).tripped then 3
       else if r.nominal == 0 && 550 ≤ val % 65536 && val % 65536 ≤ 650 then 0 else 1)
    else if type == pclIlimType then (if val ≤ r.limit then 0 else 1)
    else 0

/-- A channel enters or leaves retention (R352). -/
def State.retainCh (s : State) (c mv : Nat) (enter : Bool) : State :=
  (s.setChan c { s.chan c with retention := enter, retMv := mv }).rowView c

/-- What an accepted frame makes the power module do (R352, R353, R355). -/
def State.vpmDo (s : State) (n m type ch val : Nat) : State :=
  let x := s.chan ch
  if type == pclSetVType then (s.setChan ch { x with mv := val, regulated := x.regulated && x.mv == val }).rowView ch
  else if type == pclEnableType then
    (if val == 0 then s.chOff ch
     else (s.aonStart ch).setChan ch { x with
                                on := true, tripped := false, regulated := true,
                                mv := if (railOf ch).nominal == 0 then x.mv else (railOf ch).nominal,
                                ilim := if x.ilim == 0 then (railOf ch).limit else x.ilim })
  else if type == pclRetainType then
    (if val / 131072 == 1 then (List.range 24).foldl (fun s k => s.retainCh (50 * ch + k) (val % 65536) (val / 65536 % 2 == 1)) s
     else s.retainCh ch (val % 65536) (val / 65536 % 2 == 1))
  else if type == pclIlimType then s.setChan ch { x with ilim := val }
  else if type == pclClaimType then
    s.setPcl n { s.pcl n with master := some m, released := none, beat := s.power.aon }
  else if type == pclReleaseType then s.setPcl n { s.pcl n with master := none, released := some m, beat := s.power.aon }
  else s

/-- A frame goes to the power module, which acts on it and answers, if it has input and the link is up. -/
def State.pclSend (s : State) (n m type ch val resends : Nat) : State :=
  let q := (s.pcl n).seq
  let heard := s.power.vpmIn && (s.pcl n).up
  let v := s.verdict n m type ch val
  let s := if heard && v == 0 then s.vpmDo n m type ch val else s
  let x := s.pcl n
  s.setPcl n { x with seq := (q + 1) % 256
                      out := x.out ++ [⟨q, type, ch, val, m, resends, if heard then some v else none⟩] }

/-- A die that runs sends a frame on a link. -/
def State.pclFrame (s : State) (n m type ch val : Nat) : State :=
  if (s.boot.ctl m).powered then s.pclSend n m type ch val 0 else s

/-- PCL_SET_V (R346, R353). -/
def execPclSetV (m ch mv : Nat) (s : State) : Out :=
  onUnit (ctlOk m && ch < 1616) (fun s => s.pclFrame (chLink ch) m pclSetVType ch mv) s

/-- PCL_ENABLE (R352, R354). -/
def execPclEnable (m ch : Nat) (on : Bool) (s : State) : Out :=
  onUnit (ctlOk m && ch < 1616) (fun s => s.pclFrame (chLink ch) m pclEnableType ch (b2n on)) s

/-- PCL_RETAIN (R352): a channel, or with `region` the rows of a block. -/
def execPclRetain (m target mv : Nat) (region enter : Bool) (s : State) : Out :=
  onUnit (ctlOk m && target < (if region then 32 else 1616)) (fun s =>
    s.pclFrame (chLink (if region then 50 * target else target)) m pclRetainType target (retainVal (mv % 65536) region enter)) s

/-- PCL_SET_ILIM (R352). -/
def execPclSetIlim (m ch lim : Nat) (s : State) : Out :=
  onUnit (ctlOk m && ch < 1616) (fun s => s.pclFrame (chLink ch) m pclIlimType ch lim) s

/-- PCL_READ (R352). -/
def execPclRead (m ch : Nat) (s : State) : Out :=
  onUnit (ctlOk m && ch < 1616) (fun s => s.pclFrame (chLink ch) m pclReadType ch 0) s

/-- PCL_CLAIM (R355). -/
def execPclClaim (m link : Nat) (s : State) : Out :=
  onUnit (pclOk m link) (fun s => s.pclFrame link m pclClaimType 0 0) s

/-- PCL_HEARTBEAT (R352, R355): it has no answer. -/
def execPclHeartbeat (m link : Nat) (s : State) : Out :=
  onUnit (pclOk m link) (fun s =>
    let x := s.pcl link
    if !(s.boot.ctl m).powered then s
    else if s.power.vpmIn && x.up && x.master == some m then
      s.setPcl link { x with beat := s.power.aon, seq := (x.seq + 1) % 256 }
    else s.setPcl link { x with seq := (x.seq + 1) % 256 }) s

/-- PCL_RELEASE (R355). -/
def execPclRelease (m link : Nat) (s : State) : Out :=
  onUnit (pclOk m link) (fun s => s.pclFrame link m pclReleaseType 0 0) s

/-- The new master of a link reads every channel and sends again each SET_V that has no answer (R355). -/
def State.newMaster (s : State) (n m : Nat) : State :=
  let old := (s.pcl n).out.filter (fun e => e.type == pclSetVType)
  let s := s.setPcl n { s.pcl n with out := (s.pcl n).out.filter (fun e => e.type != pclSetVType && e.type != pclClaimType) }
  let s := (linkChs n).foldl (fun s c => s.pclSend n m pclReadType c 0 0) s
  old.foldl (fun s e => s.pclSend n m pclSetVType e.ch e.val 0) s

/-- A claim that the power module has accepted. -/
def State.takeLink (s : State) (n m : Nat) : State :=
  (s.setPcl n { s.pcl n with master := some m, released := none, beat := s.power.aon }).newMaster n m

/-- The bytes of a frame (R351): the comma's data bits, type, length, sequence number, payload, and CRC-32C from the type on.
That a frame passes or fails its check is told by the command that receives it (log entry 70). -/
def pclBytes (type seq : Nat) (payload : List Byte) : List Byte :=
  let body := toBytes (type % 256) 1 ++ toBytes (payload.length % 256) 1 ++ toBytes (seq % 256) 1 ++ payload
  toBytes 0xBC 1 ++ body ++ toBytes (crc32c body).toNat 4

/-- The payload of a command (R352): its channel in 16 bits and its value. -/
def PclCmd.payload (e : PclCmd) : List Byte :=
  if e.type == pclSetVType || e.type == pclIlimType then toBytes e.ch 2 ++ toBytes e.val 2
  else if e.type == pclEnableType then toBytes e.ch 2 ++ toBytes e.val 1
  else if e.type == pclRetainType then toBytes e.ch 2 ++ toBytes (e.val % 65536) 2 ++ toBytes (e.val / 65536 % 2) 1
  else if e.type == pclReadType then toBytes e.ch 2
  else []

/-- A frame from the power module arrives on a link (R351): the number of its direction advances; one whose CRC fails is
discarded and counted. -/
def State.pclIn (s : State) (n : Nat) (crcOk : Bool) (f : State → State) : State :=
  if !s.power.vpmIn || !(s.pcl n).up then s
  else
    let s := s.setPcl n { s.pcl n with vseq := ((s.pcl n).vseq + 1) % 256 }
    if crcOk then f s
    else (s.addSat (domePage 4) (PCL_STATUS_CRC_ERRORS n) 1).addSat (domePage 5) (PCL_STATUS_CRC_ERRORS n) 1

/-- The entry answered leaves the link. -/
def State.pclTake (s : State) (n : Nat) (e : PclCmd) : State :=
  s.setPcl n { s.pcl n with out := (s.pcl n).out.filter (fun y => y != e) }

/-- PCL_ACK (R346, R352): a SET_V is acknowledged once the channel is in regulation. -/
def execPclAck (a : Arrival) (seq : Nat) (s : State) : Out :=
  onUnit (a.n < 8) (fun s => s.pclIn a.n a.crcOk fun s =>
    match (s.pcl a.n).out.find? (fun e => e.seq == seq && e.ans == some 0 && e.type != pclReadType) with
    | none => s
    | some e =>
      let s := s.pclTake a.n e
      if e.type == pclSetVType then
        (if (s.chan e.ch).mv == e.val && (s.chan e.ch).on then s.setChan e.ch { s.chan e.ch with regulated := true } else s)
      else if e.type == pclClaimType && (s.pcl a.n).master == some e.die then s.newMaster a.n e.die
      else s) s

/-- PCL_NAK (R352, R394): a claim refused because the other controller still masters its links is MGMT_SPLIT. -/
def execPclNak (a : Arrival) (seq reason : Nat) (s : State) : Out :=
  onUnit (a.n < 8) (fun s => s.pclIn a.n a.crcOk fun s =>
    match (s.pcl a.n).out.find? (fun e => e.seq == seq && e.ans == some reason && reason != 0) with
    | none => s
    | some e =>
      let s := s.pclTake a.n e
      if e.type == pclClaimType && reason == 4 then s.uncontained srcMgmtSplit locNone else s) s

/-- Current of a telemetry entry in mA (R352). -/
def entryMa (e : W32) : Nat := e.toNat / 2 ^ 18 * 4

/-- A telemetry entry reaches the monitor (R353): current × set voltage × 100 µs is added to the channel's energy. -/
def State.telem (s : State) (c : Nat) (e : W32) : State :=
  let x := s.chan c
  let s := s.setChan c { x with entry := e }
  { s with power := { s.power with energy := s.power.energy.set c (s.power.energy.getD c 0 + entryMa e * x.volts) } }

/-- PCL_TELEM (R352, R353): a TELEM frame of a block or, for region 0xFF, of the link's Dome die. -/
def execPclTelem (a : Arrival) (region : Nat) (entries : List W32) (s : State) : Out :=
  onUnit (a.n < 8) (fun s => s.pclIn a.n a.crcOk fun s =>
    let first := if region == 0xFF then 1600 + 2 * (2 * (a.n % 4) + a.n / 4) else 50 * region
    let n := if region == 0xFF then 2 else 50
    if (s.pcl a.n).master.isNone || entries.length != n
        || (region != 0xFF && (31 < region || chLink first != a.n)) then s
    else (List.range n).foldl (fun s i => s.telem (first + i) (entries.getD i 0#32)) s) s

/-- PCL_EVENT (R352, R354, R356, R357): trip, over limit, over temperature, input stage collapse, input low. -/
def execPclEvent (a : Arrival) (kind : Nat) (s : State) : Out :=
  onUnit (s.chFitted a.n) (fun s => s.pclIn (chLink a.n) a.crcOk fun s =>
    if (s.pcl (chLink a.n)).master.isNone then s
    else
      match kind with
      | 1 => if (s.chan a.n).tripped then s.railOutcome (railOf a.n) else s
      | 2 => (match railOf a.n with
        | .row d h => (List.range 8).foldl (fun s i => s.halveDuty (16 * d + 8 * h + i)) s
        | .spine d => (List.range 16).foldl (fun s i => s.halveDuty (16 * d + i)) s
        | _ => s)
      | 4 => if a.n < 1600 then s.goDark (a.n / 50) else s
      | _ => s) s

/-- PCL_STATUS (R352): the answer to a READ. -/
def execPclStatus (a : Arrival) (mv : Nat) (entry : W32) (s : State) : Out :=
  onUnit (s.chFitted a.n) (fun s => s.pclIn (chLink a.n) a.crcOk fun s =>
    let n := chLink a.n
    match (s.pcl n).out.find? (fun e => e.type == pclReadType && e.ch == a.n && e.ans == some 0) with
    | none => s
    | some e => if (s.chan a.n).mv == mv then (s.pclTake n e).setChan a.n { s.chan a.n with entry := entry } else s) s

/-- PCL_VHEART (R347, R352): the input voltage and current; the input term of the ceiling follows. -/
def execPclVheart (a : Arrival) (mv ma10 : Nat) (s : State) : Out :=
  onUnit (a.n < 8) (fun s => s.pclIn a.n a.crcOk fun s =>
    let s := (s.setDome (PCL_STATUS_INPUT_MV a.n) mv).setDome (PCL_STATUS_INPUT_10MA a.n) ma10
    let s := { s with power := { s.power with inputMv := mv % 65536, inputMa10 := ma10 % 65536 } }
    if s.fwRuns then s.ceilSync else s) s

/-- PCL_RESEND (R353): a command with no answer is sent again, and after three times it fails and the link is retrained. -/
def execPclResend (link seq : Nat) (s : State) : Out :=
  onUnit (link < 8) (fun s =>
    match (s.pcl link).out.find? (fun e => e.seq == seq) with
    | none => s
    | some e =>
      let s := s.setPcl link { s.pcl link with out := (s.pcl link).out.filter (fun y => y != e) }
      if e.resends < 3 then
        (s.addSat (domePage (4 + e.die)) (PCL_STATUS_RETRIES link) 1).pclSend link e.die e.type e.ch e.val (e.resends + 1)
      else s.setPcl link { s.pcl link with up := false }) s

/-- PCL_RETRAIN (R355). -/
def execPclRetrain (link : Nat) (ok : Bool) (s : State) : Out :=
  onUnit (link < 8) (fun s => s.setPcl link { s.pcl link with up := ok && s.power.vpmIn }) s

/-- PCL_CLAIM_TIMEOUT (R355): a link that has not returned within 10 ms passes to the other management die. -/
def execPclClaimTimeout (link : Nat) (s : State) : Out :=
  onUnit (link < 8) (fun s =>
    match (s.pcl link).master with
    | some m =>
      if (s.pcl link).up || !(s.boot.ctl (1 - m)).powered || !s.power.vpmIn then s
      else (s.setPcl link { s.pcl link with up := true }).takeLink link (1 - m)
    | none => s) s

/-- PCL_RECLAIM (R355): nobody has claimed a released link for 10 ms. -/
def execPclReclaim (link : Nat) (s : State) : Out :=
  onUnit (link < 8) (fun s =>
    match (s.pcl link).master, (s.pcl link).released with
    | none, some m => if (s.boot.ctl m).powered && s.power.vpmIn && (s.pcl link).up then s.takeLink link m else s
    | _, _ => s) s

end Sys2Proof.Machine
end

