-- ==== Sys2Proof/Machine/Accounting.lean ====
section
/-! DEFINITION. The Orrery planner's tick and windows (R326–R331): energy read from the power monitors is charged, budgets
and duties are set, and deferred commands are tried again. Energy is counted in units of 1e-4 µJ, which telemetry fills
exactly; what is charged beyond whole µJ is carried to the next tick. -/

namespace Sys2Proof.Machine

/-- Charges of one tick: by partition, by handle, in all, in 1e-4 µJ. -/
structure Charges where
  parts : Tab Nat
  cmds : Tab Nat

/-- Charge a command; the number 0 is no handle. -/
def Charges.addCmd (a : Charges) (h e : Nat) : Charges :=
  if h == 0 then a else { a with cmds := a.cmds.set h (a.cmds.getD h 0 + e) }

/-- Charge a partition. -/
def Charges.addPart (a : Charges) (part e : Nat) : Charges :=
  if 64 ≤ part then a else { a with parts := a.parts.set part (a.parts.getD part 0 + e) }

/-- Energy of channel c since the last tick; a link without a master is charged at its last telemetry (R355). -/
def State.chEnergy (s : State) (c : Nat) : Nat :=
  if (s.pcl (chLink c)).master.isNone then entryMa (s.chan c).entry * (s.chan c).volts * 10
  else s.power.energy.getD c 0 - s.panel.lastEnergy.getD c 0

/-- Active cycles of a site since the last tick (R327). -/
def State.actNow (s : State) (g : Nat) : Nat := s.fld (spinePage (dieOfSite g)) (PM_ACTIVE_W (g % 16))
def State.actDelta (s : State) (g : Nat) : Nat :=
  let n := s.actNow g
  let o := s.panel.lastActive.getD g 0
  if o ≤ n then n - o else n

/-- A domain's energy among sites in proportion to their active cycles; a site of no partition, and a domain with no active
site, are overhead (R326). -/
def State.chargeSites (s : State) (a : Charges) (e : Nat) (l : List Nat) : Charges :=
  let act := l.map (fun g => (g, s.actDelta g))
  let total := (act.map (·.2)).sum
  if total == 0 || e == 0 then a
  else act.foldl (fun a x =>
    let c := s.core x.1
    let n := e * x.2 / total
    if 64 ≤ c.part then a else (a.addPart c.part n).addCmd c.handle.toNat n) a

/-- Energy of the rows and the spine of die d; the dew state is overhead. -/
def State.chargeDie (s : State) (a : Charges) (d : Nat) : Charges :=
  if s.flag (spinePage d) TH_STATUS_DEW then a
  else
    let a := s.chargeSites a (s.chEnergy (rowCh d 0)) (rowSites d false)
    let a := s.chargeSites a (s.chEnergy (rowCh d 1)) (rowSites d true)
    s.chargeSites a (s.chEnergy (spineCh d)) ((List.range 16).map (fun i => 16 * d + i))

/-- Channels of a block's base dies, stacks and engine. -/
def sharedChs (b : Nat) : List Nat := (List.range 14).map (fun i => 50 * b + 36 + i)

/-- Traffic of a partition since the last tick (R327). -/
def State.trafDelta (s : State) (u q : Nat) : Nat :=
  let n := s.fld (basePage u) (TRAFFIC_W q)
  let o := s.panel.lastTraffic.getD (128 * u + q) 0
  if o ≤ n then n - o else n

/-- Traffic energy e of partition q, of w packets, among its running commands in proportion to theirs (R327). -/
def State.chargeCmds (s : State) (a : Charges) (q w e : Nat) : Charges :=
  (s.handles.filter (fun h => h.part == q && h.state == .running)).foldl (fun a h =>
    a.addCmd h.h.toNat (e * min w (s.panel.cmdTraffic.getD h.h.toNat 0) / w)) a

/-- Energy of base dies, stacks and engines above the idle floors, in proportion to traffic (R326). -/
def State.chargeTraffic (s : State) (a : Charges) : Charges :=
  let e := ((List.range 32).map (fun b => ((sharedChs b).map s.chEnergy).sum - s.power.floor.getD b 0 * 10000)).sum
  let w := (partIds ++ [127]).map (fun q => (q, ((List.range 96).map (fun u => s.trafDelta u q)).sum))
  let total := (w.map (·.2)).sum
  if total == 0 || e == 0 then a
  else w.foldl (fun a x =>
    let n := e * x.2 / total
    if x.2 == 0 || 64 ≤ x.1 then a else s.chargeCmds (a.addPart x.1 n) x.1 x.2 n) a

/-- The tick's charges; in thermal hold all energy is overhead. -/
def State.charges (s : State) : Charges :=
  if s.therm.hold != 0 then ⟨[], []⟩
  else s.chargeTraffic ((List.range 384).foldl (fun a d => s.chargeDie a d) ⟨[], []⟩)

/-- Charge partitions and commands, and remember what the counters showed. -/
def State.charge (s : State) : State :=
  let a := s.charges
  let all := ((List.range 1616).map s.chEnergy).sum
  let mine := (a.parts.map (·.2)).sum
  let s := partIds.foldl (fun s q =>
    let x := s.prt q
    if !x.live then s
    else
      let e := x.frac + a.parts.getD q 0
      let p := e / 10000
      s.setPrt q { x with frac := e % 10000, lastTick := p, spent := x.spent + p, total := x.total + p,
                          ticks := (p :: x.ticks).take 100 }) s
  let s := { s with handles := s.handles.map (fun (h : Handle) =>
    let e := h.frac + a.cmds.getD h.h.toNat 0
    { h with frac := e % 10000, charged := h.charged + e / 10000 }) }
  let act : Tab Nat := (List.range 6144).filterMap (fun g => if s.actNow g == 0 then none else some (g, s.actNow g))
  let traf : Tab Nat := (List.range 96).flatMap (fun u => (partIds ++ [127]).filterMap (fun q =>
    let n := s.fld (basePage u) (TRAFFIC_W q)
    if n == 0 then none else some (128 * u + q, n)))
  { s with
    panel := { s.panel with overhead := (((all - mine) / 10000) :: s.panel.overhead).take 100
                            lastActive := act, lastTraffic := traf, lastEnergy := s.power.energy, cmdTraffic := [] }
    therm := { s.therm with measuredW := all / 10000000, tickEnergy := all } }

/-- Work admitted or deferred (R331). -/
def State.hasWork (s : State) (q : Nat) : Bool :=
  s.handles.any (fun h => h.part == q && governed h.opcode && h.state != .complete)

/-- The overhead power in mW over the last 100 ticks (R331). -/
def State.poh (s : State) : Nat := s.panel.overhead.sum / max 1 s.panel.overhead.length

/-- The sum of B ÷ W over partitions with work, as a fraction (R331). -/
def State.demand (s : State) : Nat × Nat :=
  (partIds.filter (fun q => (s.prt q).live && s.hasWork q)).foldl (fun a q =>
    let w := max 1 (s.prt q).window
    (a.1 * w + (s.prt q).budget * a.2, a.2 * w)) (0, 1)

/-- Effective budgets (R331). -/
def State.setBudgets (s : State) : State :=
  let pav := s.panel.ceilingW * 1000 - s.poh
  let dem := s.demand
  partIds.foldl (fun s q =>
    let x := s.prt q
    if !x.live then s
    else s.setPrt q { x with beff := if dem.1 ≤ pav * dem.2 then x.budget else x.budget * pav * dem.2 / dem.1 }) s

/-- The duty of R328, for t ms left in the window. -/
def dutyOf (d beff spent p t : Nat) : Nat :=
  if beff ≤ spent then 7
  else if p == 0 then 255
  else
    let a := beff - spent
    let n := (d + 1) * a / (p * t)
    if a < p * t then max 7 (n - 1)
    else if 10 * p * t < 9 * a then min 255 (n - 1)
    else d

/-- Write a partition's duty to its cores (R328). -/
def State.writeDuty (s : State) (q d : Nat) : State :=
  let s := s.updPrt q (fun x => { x with duty := d })
  (s.partSites q).foldl (fun s g =>
    [SEQ_THROTTLE_DUTY, MAC_CFG_DUTY, VEC_CFG_DUTY, EDGE_CFG_DUTY].foldl (fun s F => s.setFld (corePage g) F d) s) s

/-- Every partition's duty for the next tick; above the ceiling by more than 5 % all are halved (R328, R331). -/
def State.setDuties (s : State) : State :=
  let above := s.panel.ceilingW * 105 * 100000 < s.therm.tickEnergy
  partIds.foldl (fun s q =>
    let x := s.prt q
    if !x.live then s
    else
      let d := dutyOf x.duty x.beff x.spent x.lastTick (max 1 x.left)
      s.writeDuty q (if above then max 7 (d / 2) else d)) s

/-- S, R, Beff and the total that QUERY_PART shows until the next tick (R333). -/
def State.showFigures (s : State) : State :=
  partIds.foldl (fun s q =>
    let x := s.prt q
    if !x.live then s
    else s.setPrt q { x with figures := ⟨BitVec.ofNat 64 x.spent, BitVec.ofNat 64 (s.reserved q), BitVec.ofNat 64 x.beff,
                                         BitVec.ofNat 64 x.total⟩ }) s

/-- ACCOUNTING_TICK. -/
def execAccountingTick (s : State) : Out :=
  .next (if !s.fwRuns then s
    else
      let s := s.charge
      -- a CEILING accepted since the last tick is in force (R462, R464)
      let s := match s.fac.ceilNext with
        | some c => { s with fac := { s.fac with facCeil := c, safe := false, ceilNext := none } }
        | none => s
      let s := s.ceilSync
      let s := partIds.foldl (fun s q =>
        if (s.prt q).live then s.updPrt q (fun x => { x with budget := x.budgetNext, left := x.left - 1 }) else s) s
      s.setBudgets.setDuties.showFigures.settle.startAll)

/-- ACCOUNTING_WINDOW (R324, R328, R330, R332). -/
def execAccountingWindow (part : Nat) (s : State) : Out :=
  onUnit (partOk part) (fun s =>
    if !(s.prt part).live || !s.fwRuns then s
    else
      let s := s.updPrt part (fun x => { x with spent := 0, window := x.windowNext, left := x.windowNext })
      (s.setOver part 4 0).startWaiting part) s

end Sys2Proof.Machine
end

