-- ==== Sys2Proof/Machine/Chain.lean ====
section
/-! DEFINITION. Chain mode of the vector engine (R153–R156). -/

namespace Sys2Proof.Machine

/-- Fields of a micro-op (R154). -/
def uOp (u : Nat) : Nat := u / 2 ^ 26 % 64
def uDst (u : Nat) : Nat := u / 2 ^ 23 % 8
def uA (u : Nat) : Nat := u / 2 ^ 19 % 16
def uB (u : Nat) : Nat := u / 2 ^ 15 % 16
def uC (u : Nat) : Nat := u / 2 ^ 11 % 16

/-- Micro-op and constant of an image (R153). -/
def chainOp (img i : Nat) : Nat := img / 2 ^ (32 * i) % 2 ^ 32

/-- The program: micro-ops before the first END (R153). -/
def chainProg (img : Nat) : List Nat := ((List.range 32).map (chainOp img)).takeWhile (fun u => uOp u != 0)

/-- The first END, whose other fields must be zero. -/
def chainEnd (img : Nat) : Nat := (((List.range 32).map (chainOp img)).find? (fun u => uOp u == 0)).getD 0

/-- Sources a micro-op reads (R155). -/
def uSrcs (op : Nat) : Nat :=
  match op with
  | 0x05 | 0x0B | 0x0C => 3
  | 0x01 | 0x09 | 0x0A | 0x10 | 0x11 | 0x12 | 0x13 | 0x14 | 0x15 | 0x16 | 0x17 | 0x18 | 0x19 | 0x20 | 0x21 => 1
  | _ => 2

/-- A micro-op is valid (R154–R156): known, its unused fields zero, its F or I mark fitting the type, and its
inputs and outputs enabled. -/
def uLegal (flt in3 out1 : Bool) (u : Nat) : Bool :=
  let op := uOp u
  let n := uSrcs op
  let out := 0x20 ≤ op
  let src := fun x => x != 0xB || in3
  op ≤ 0x23 && u % 2048 == 0
    && (!out || uDst u == 0) && src (uA u)
    && (if 2 ≤ n then src (uB u) else uB u == 0) && (if n == 3 then src (uC u) else uC u == 0)
    && (if 0x10 ≤ op && op ≤ 0x19 then flt else if 0x1A ≤ op && op ≤ 0x1F then !flt else true)
    && (if op == 0x21 || op == 0x23 then out1 else true)

/-- The slot holds a program that the instruction may run (R156). -/
def chainLegal (w : W64) (slot : Option (BitVec 1152)) : Bool :=
  match slot with
  | none => false
  | some b => chainEnd b.toNat == 0
      && (chainProg b.toNat).all (uLegal (vtFloat (vTy w)) (bit w 13) (bit w 14))

/-- The value read from a code greatest not above it, as an integer (FLOOR). -/
def Dy.floor (v : Dy) : Dy :=
  if 0 ≤ v.e then v else Dy.ofInt (v.m / 2 ^ (-v.e).toNat)

/-- One micro-op on codes of FP32 or INT32 (R155). -/
def uEval (flt : Bool) (op a b c : Nat) : Nat :=
  let ty := if flt then 0 else 5
  let x := vtDec ty a
  let y := vtDec ty b
  let z := vtDec ty c
  let w := fun v => vtEnc ty v .rne
  let tf := fun (p : Bool) => w (Dy.ofInt (if p then 1 else 0))
  match op with
  | 0x01 => a
  | 0x02 => w (vtArith 0xC8 ty x y z)
  | 0x03 => w (vtArith 0xC9 ty x y z)
  | 0x04 => w (vtArith 0xCA ty x y z)
  | 0x05 => w (vtArith 0xCB ty x y z)
  | 0x06 => w (vtArith 0xCC ty x y z)
  | 0x07 => w (vtArith 0xCD ty x y z)
  | 0x08 => w (vtArith 0xCE ty x y z)
  | 0x09 => w x.abs
  | 0x0A => w x.neg
  | 0x0B => w (Dy.minD (Dy.maxD x y) z)
  | 0x0C => if z.isZero then b else a
  | 0x0D => tf (x.eqv y)
  | 0x0E => tf (x.lt y)
  | 0x0F => tf (x.le y)
  | 0x10 => w x.floor
  | 0x11 => w (Dy.ofInt (x.toInt .rne))
  | _ =>
    if op ≤ 0x19 then vtFun (op - 0x12 + 0xD1) 0 a
    else vtLogic (match op with | 0x1A => 0xDB | 0x1B => 0xDC | 0x1C => 0xDD | 0x1D => 0xDF | 0x1E => 0xE0 | _ => 0xE1) 32 a b

/-- What one element's program leaves: temporaries, and the last write to each output. -/
structure ChainEl where
  u : Tab Nat
  o0 : Option Nat
  o1 : Option Nat

/-- Run a program on one element: `inp` gives the codes of the inputs, `p` those of the constants. -/
def chainRun (flt : Bool) (prog : List Nat) (inp p : Nat → Nat) : ChainEl :=
  prog.foldl (fun (a : ChainEl) u =>
    let src := fun x => if x < 8 then a.u.getD x 0 else if x < 12 then inp (x - 8) else p (x - 12)
    let op := uOp u
    let va := src (uA u)
    let vb := src (uB u)
    let nz := !(vtDec (if flt then 0 else 5) vb).isZero
    match op with
    | 0x20 => { a with o0 := some va }
    | 0x21 => { a with o1 := some va }
    | 0x22 => if nz then { a with o0 := some va } else a
    | 0x23 => if nz then { a with o1 := some va } else a
    | _ => { a with u := a.u.set (uDst u) (uEval flt op va vb (src (uC u))) }) ⟨[], none, none⟩

/-- VCHAIN (R156): every element of the type's count, then the two outputs; of two writes to one element of one
tile the later micro-op's stands. -/
def vecChain (w : W64) (b : BitVec 1152) (v : Vec) : Vec :=
  let ty := vTy w
  let flt := vtFloat ty
  let cty := if flt then 0 else 5
  let o := vIMM w / 2 ^ 15
  let prog := chainProg b.toNat
  let p := fun i => vtEnc cty (vtDec cty (chainOp b.toNat (32 + i))) .rne
  let tile := fun i => v.tile (match i with | 0 => vTA w | 1 => vTB w | 2 => vTC w | _ => vIMM w % 32)
  let t0 := vTD w
  let t1 := vIMM w / 32 % 32
  let same := t0 == t1 && bit w 14
  let els := (List.range (vtN ty)).map (fun e =>
    let inp := fun i => vtEnc cty (vtDec ty (elemAt (vtW ty) (tile i) e)) .rne
    chainRun flt (if same then prog.map (fun u => if uOp u == 0x21 || uOp u == 0x23 then u - 2 ^ 26 else u) else prog) inp p)
  let write := fun (v : Vec) (t : Nat) (get : ChainEl → Option Nat) =>
    v.put t (vtW o) (vtN o) (fun e => vOn w v e && ((els[e]?).bind get).isSome)
      (fun e => vtEnc o (vtDec cty (((els[e]?).bind get).getD 0)) .rne)
  let v := write v t0 (fun x => x.o0)
  if bit w 14 then write v t1 (fun x => x.o1) else v

def execVchain (g : Nat) (s : State) : Out :=
  vecRow g 0xED (fun w e => do
    let s ← get
    let slot := (s.vec g).chain.find (vIMM e.w / 1024 % 8)
    w.require (chainLegal e.w slot)
    match slot with
    | some b => set (s.setVec g (vecChain e.w b (s.vec g)))
    | none => pure ()) s

end Sys2Proof.Machine
end

