-- ==== Sys2Proof/Machine/Thermal.lean ====
section
/-! DEFINITION. Temperature sensors and the values resolved from them (R360–R363), the limits (R364–R367), the coolant
ceiling (R369, R370), thermal hold (R371–R373), pre-cooling (R375), the dew state (R376) and thermal cycles (R377).
Temperatures are in 1/16 °C. -/

namespace Sys2Proof.Machine

/-! Sensors, R360–R363. -/

/-- Where a unit's sensors stand in `Thermal.unit`: a compute die under its number. -/
def sensKey : SensorUnit → Nat
  | .compute d => d
  | .dome i => 384 + i
  | .base u => 400 + u
  | .photonic b => 500 + b
  | .stack n => 600 + n

/-- Sensors of a unit (R360). -/
def sensCount : SensorUnit → Nat
  | .compute _ => 4
  | .stack _ => 1
  | _ => 2

/-- The part has the unit. -/
def State.sensFitted (s : State) : SensorUnit → Bool
  | .compute d => dieOk d
  | .base u => baseOk u
  | .photonic b => blockOk b && s.part.hasTransit
  | .stack n => s.part.hasStack n
  | .dome i => s.part.hasDome i

def State.sens (s : State) (k : Nat) : Sensed := s.therm.unit.getD k Sensed.reset
def State.setSens (s : State) (k : Nat) (x : Sensed) : State := { s with therm := { s.therm with unit := s.therm.unit.set k x } }

/-- Tin and Tout as the facility last reported them (R462). -/
def State.tin (s : State) : Int := sgn (s.fld (domePage 4) FAC_VALUES_TIN) 16
def State.tout (s : State) : Int := sgn (s.fld (domePage 4) FAC_VALUES_TOUT) 16

/-- Channels that supply a unit (R349). -/
def unitChs : SensorUnit → List Nat
  | .compute d => [rowCh d 0, rowCh d 1, spineCh d]
  | .base u => [50 * (u / 3) + 36 + 2 * (u % 3), 50 * (u / 3) + 37 + 2 * (u % 3)]
  | .stack n => (List.range 3).map (fun r => 50 * (n / 2) + 42 + 3 * (n % 2) + r)
  | .photonic b => [50 * b + 48, 50 * b + 49]
  | .dome i => [1600 + 2 * i, 1601 + 2 * i]

/-- The power of a unit in mW, from the last telemetry. -/
def State.unitMw (s : State) (u : SensorUnit) : Nat :=
  ((unitChs u).map (fun c => entryMa (s.chan c).entry * (s.chan c).volts)).sum / 1000

/-- Neighbours of R363: the adjacent compute dies of the block, or the base die that a stack attaches to. -/
def sensNear : SensorUnit → List SensorUnit
  | .compute d => ((blockDies (blockOf d)).filter (fun e => meshDist d e == 1)).map .compute
  | .stack n => [.base (3 * (n / 2) + 2 * (n % 2))]
  | _ => []

/-- The unit is in service and has readings. -/
def State.sensLive (s : State) (u : SensorUnit) : Bool :=
  !(s.sens (sensKey u)).reads.isEmpty && (match u with
    | .compute d => s.dieIn d
    | .base b => s.baseState b == 0
    | _ => true)

/-- The model estimate of R363. -/
def State.estimate (s : State) (u : SensorUnit) : Int :=
  let l := (sensNear u).filter (fun v => s.sensLive v)
  if l.isEmpty then s.tin + 640
  else
    let n := l.length
    let t := (l.map (fun v => (s.sens (sensKey v)).value)).sum / (n : Int)
    let p := (l.map (fun v => s.unitMw v)).sum / n
    t + ((s.unitMw u - p) * 8 / 1000 : Nat) + 48

/-- One pair (R362): its state and its value, none when both readings are discarded. -/
def resolvePair (p : Pair) (now : Nat) (a b : Int) (da db : Bool) : Pair × Option Int :=
  if da && db then ({ p with apart := none, close := none }, none)
  else if da || db then (⟨true, none, none⟩, some ((if da then b else a) + 32))
  else
    let gap := (a - b).natAbs
    let apart := if 80 < gap then some (p.apart.getD now) else none
    let close := if gap ≤ 32 then some (p.close.getD now) else none
    let flag := match apart, close with
      | some t, _ => p.flag || t + 100 < now
      | none, some t => p.flag && now < t + 10000
      | none, none => p.flag
    (⟨flag, apart, close⟩, some (max a b + if flag then 32 else 0))

/-- The throttling limit of R364. -/
def throttleAt : SensorUnit → Int
  | .compute _ => 1440
  | .stack _ => 1360
  | .photonic _ => 1280
  | _ => 1520

/-- Throttling begins above the limit and ends after 500 ms at 4 °C or more below it (R364). -/
def Sensed.throttle (x : Sensed) (lim : Int) (now : Nat) : Sensed :=
  if lim < x.value then { x with throttling := true, cool := none }
  else if !x.throttling then x
  else if x.value ≤ lim - 64 then
    (if x.cool.getD now + 500 ≤ now then { x with throttling := false, cool := none }
     else { x with cool := some (x.cool.getD now) })
  else { x with cool := none }

/-- New readings (R361): those discarded, the pairs, the temperature, the throttling (R362–R364). -/
def State.resolveUnit (s : State) (u : SensorUnit) (x : Sensed) (r : List Int) : Sensed :=
  let now := s.ms
  let disc := r.map (fun (t : Int) => decide (t < s.tin - 80) || decide (2400 < t))
  let est := s.estimate u
  let one := fun (p : Pair) (i : Nat) => resolvePair p now (r.getD i 0) (r.getD (i + 1) 0) (disc.getD i true) (disc.getD (i + 1) true)
  let a := one x.pair0 0
  let b := one x.pair1 2
  let none0 := match u with | .stack _ => disc.getD 0 true | .compute _ => a.2.isNone || b.2.isNone | _ => a.2.isNone
  let v := match u with
    | .stack _ => if none0 then est else r.getD 0 0
    | .compute _ => max (a.2.getD est) (b.2.getD est)
    | _ => a.2.getD est
  let p0 := match u with | .stack _ => x.pair0 | _ => a.1
  let p1 := match u with | .compute _ => b.1 | _ => x.pair1
  ({ x with samples := [], reads := r, discarded := disc, pair0 := p0, pair1 := p1, value := v,
            model := if none0 then some (x.model.getD now) else none }).throttle (throttleAt u) now

/-! Limits, R364–R367. -/

/-- TH_READ and TH_STATUS of a compute die (R378). -/
def State.thView (s : State) (d : Nat) : State :=
  let x := s.sens d
  let k := spinePage d
  let s := [(0, TH_READ_S0), (1, TH_READ_S1), (2, TH_READ_S2), (3, TH_READ_S3)].foldl (fun s (e : Nat × Fld) =>
    if x.reads.isEmpty then s
    else s.setFld k e.2 (((x.reads.getD e.1 0) % 16384).toNat * 4 + 2 * b2n (x.discarded.getD e.1 false) + 1)) s
  ((((s.setFld k TH_STATUS_DIE_T (x.value % 65536).toNat).setFld k TH_STATUS_MODEL (b2n x.model.isSome)).setFld k
    TH_STATUS_PAIR0_FLAG (b2n x.pair0.flag)).setFld k TH_STATUS_PAIR1_FLAG (b2n x.pair1.flag)).setFld k
    TH_STATUS_DIE_HOLD (b2n x.hold)

/-- The trip of a compute die (R367): its clocks stop, and firmware switches its channels off and treats it as failed. -/
def State.dieTrip (s : State) (d : Nat) : State :=
  if !(s.chan (spineCh d)).on then s
  else
    let s := s.setSens d { s.sens d with trip := true }
    let s := (s.setFld (spinePage d) CLK_STATUS_NORTH_RUN 0).setFld (spinePage d) CLK_STATUS_SOUTH_RUN 0
    if !s.fwRuns then s else ((unitChs (.compute d)).foldl (fun s c => s.chOff c) s).dieLost d

/-- The trip of another unit (R367), with the outcome of R356. -/
def State.unitTrip (s : State) (u : SensorUnit) (r : Rail) : State :=
  if !s.fwRuns || !(unitChs u).any (fun c => (s.chan c).on) then s
  else
    let s := s.setSens (sensKey u) { s.sens (sensKey u) with trip := true }
    ((unitChs u).foldl (fun s c => s.chOff c) s).railOutcome r

/-- Die hold begins (R366). -/
def State.dieHoldBegin (s : State) (d : Nat) : State :=
  let s := s.setSens d { s.sens d with hold := true }
  (s.setFld (spinePage d) TH_STATUS_DIE_HOLD 1).stopSites ((List.range 16).map (fun i => 16 * d + i))

/-- HOLD of TH_PANEL. -/
def State.setHold (s : State) (n : Nat) : State :=
  ({ s with therm := { s.therm with hold := n } } : State).setDome TH_PANEL_HOLD n

/-- Causes of thermal hold (R371, R465). -/
def holdFlow : Nat := 1
def holdRise : Nat := 2
def holdStack : Nat := 4
def holdEstop : Nat := 8

/-- Thermal hold begins (R371, steps 1 and 2): every core stops, and an armed change is abandoned (R359). -/
def State.holdBegin (s : State) (cause : Nat) : State :=
  if !s.fwRuns then s
  else
    let s := { s with therm := { s.therm with holdCauses := s.therm.holdCauses ||| cause } }
    if s.therm.hold != 0 then s
    else
      let s := s.setHold 1
      let s := { s with cores := s.cores.mapVals (fun _ c => c.stop) }
      s.freqAbandon

/-- TR_BIAS of the routers of block b (R364). -/
def State.trBias (s : State) (b : Nat) (hot : Bool) : State :=
  let v := if hot then 0x3F else bits (BitVec.ofNat 64 RT_CFG_TR_BIAS.rst) RT_CFG_TR_BIAS.hi RT_CFG_TR_BIAS.lo
  (blockDies b).foldl (fun s r => s.setFld (routerPage r) RT_CFG_TR_BIAS v) s

/-- What a new temperature brings about (R364, R366, R367, R371). -/
def State.limits (s : State) (u : SensorUnit) (was : Bool) : State :=
  let x := s.sens (sensKey u)
  match u with
  | .compute d =>
    let s := s.thView d
    if 1840 ≤ x.value then s.dieTrip d
    else if 1680 ≤ x.value && !x.hold then s.dieHoldBegin d
    else s
  | .stack n =>
    let s := if 1520 ≤ x.value then s.holdBegin holdStack else s
    if 1600 ≤ x.value && s.therm.hold != 0 then s.unitTrip u (.stack n 0) else s
  | .base b => if 1840 ≤ x.value then s.unitTrip u (.base b 0) else s
  | .photonic b =>
    let s := if x.throttling && !was then s.trBias b true else if was && !x.throttling then s.trBias b false else s
    if 1520 ≤ x.value then s.unitTrip u (.photonic b 0) else s
  | .dome i => if 1760 ≤ x.value then s.unitTrip u (.dome i 0) else s

/-! The dew state, R375, R376. -/

/-- The forecast of a partition is in force (R374). -/
def State.foreLive (s : State) (q : Nat) : Bool :=
  (s.prt q).live && !(s.prt q).forecast.isEmpty && s.ms < (s.prt q).forecastAt + 60000

/-- Measured power of a partition over the last 100 ticks, in mW. -/
def Partition.measured (x : Partition) : Nat := x.ticks.sum / max 1 x.ticks.length

/-- Times in ms and powers in mW of the steps of a partition's forecast, each with the power before it. -/
def State.foreSteps (s : State) (q : Nat) : List (Nat × Nat × Nat) :=
  let x := s.prt q
  let l := x.forecast.map (fun (e : Nat × Nat) => (x.forecastAt + e.1, e.2 * 1000))
  (l.zip (x.measured :: l.map (fun (e : Nat × Nat) => e.2))).map (fun (e : (Nat × Nat) × Nat) => (e.1.1, e.2, e.1.2))

/-- A rise of at least 25 %, or of at least 500 W, that a partition forecasts within the next 2 s (R375). -/
def State.rising (s : State) (q : Nat) : Bool :=
  s.foreLive q && (s.foreSteps q).any (fun (e : Nat × Nat × Nat) => decide (s.ms ≤ e.1) && decide (e.1 ≤ s.ms + 2000)
    && decide (e.2.1 < e.2.2) && (decide (e.2.1 ≤ 4 * (e.2.2 - e.2.1)) || decide (500000 ≤ e.2.2 - e.2.1)))

/-- Die d is pre-warmed for a partition with cores on it. -/
def State.prewarmed (s : State) (d : Nat) : Bool := (s.dieParts d).any (fun q => s.rising q)

def State.inDew (s : State) (d : Nat) : Bool := s.flag (spinePage d) TH_STATUS_DEW

/-- Dies of a list that are active: in service, with readings, not in the dew state. -/
def State.active (s : State) (l : List Nat) : List Nat := l.filter (fun d => s.sensLive (.compute d) && !s.inDew d)

/-- The active temperature for a die of block b (R376); none when no die of the panel is active. -/
def State.activeTemp (s : State) (b : Nat) : Option Int :=
  let own := s.active (blockDies b)
  let l := if own.isEmpty then s.active (List.range 384) else own
  if l.isEmpty then none else some ((l.map (fun d => (s.sens d).value)).sum / (l.length : Int))

/-- The heater of a die in the dew state (R375, R376). -/
def State.heat (s : State) (d : Nat) : State :=
  if !s.inDew d then s
  else
    let on := match s.activeTemp (blockOf d) with
      | some t => s.therm.hold == 0 && (s.sens d).value < t - (if s.prewarmed d then 48 else 192)
      | none => false
    s.setFld (spinePage d) TH_STATUS_HEATER (b2n on)

/-- Where a unit lies, and the scored die it counts against. -/
def sensLoc : SensorUnit → Nat
  | .compute d => locDie d
  | .base u => locDie (dieOfBase u 0)
  | .photonic b => locBlock b
  | .stack n => locWord 0x1FFF 0x1FF (n / 2) n 0x3F 0 0
  | .dome _ => locNone

def sensScore : SensorUnit → List Nat
  | .compute d => [d]
  | .base u => [keyBase u]
  | .photonic b => [keyPhot b]
  | _ => []

/-- SENSOR_SAMPLE (R361): one sample of each sensor of a unit; every fourth gives new readings. -/
def execSensorSample (u : SensorUnit) (t : List Int) (s : State) : Out :=
  onUnit (s.sensFitted u) (fun s =>
    if t.length != sensCount u then s
    else
      let k := sensKey u
      let x := s.sens k
      let l := x.samples ++ [t]
      if l.length < 4 then s.setSens k { x with samples := l }
      else
        let r := (List.range (sensCount u)).map (fun i => (l.map (fun (y : List Int) => y.getD i 0)).sum / 4)
        let y := s.resolveUnit u x r
        let s := s.setSens k y
        -- a pair that is newly flagged is a corrected error (R383)
        let s := if s.fwRuns && ((y.pair0.flag && !x.pair0.flag) || (y.pair1.flag && !x.pair1.flag)) then
            s.logCorrected srcSensor 127 (sensLoc u) 0#64 (sensScore u)
          else s
        let s := s.limits u x.throttling
        match u with
        | .compute d => s.heat d
        | _ => s) s

/-- DIE_HOLD_RELEASE (R366, R379): the die has read 95 °C or below for 1 s. -/
def execDieHoldRelease (d : Nat) (s : State) : Out :=
  onUnit (dieOk d) (fun s =>
    let x := s.sens d
    if !x.hold || 1520 < x.value || s.therm.hold != 0 then s
    else
      let s := (s.setSens d { x with hold := false }).setFld (spinePage d) TH_STATUS_DIE_HOLD 0
      s.resumeSites (((List.range 16).map (fun i => 16 * d + i)).filter (fun g => (s.prt (s.core g).part).causes.isEmpty))) s

/-- DIE_HOLD_TRIP (R367): 105 °C or above after 50 ms in die hold or panel hold. -/
def execDieHoldTrip (d : Nat) (s : State) : Out :=
  onUnit (dieOk d) (fun s =>
    if 1680 ≤ (s.sens d).value && ((s.sens d).hold || s.therm.hold != 0) then s.dieTrip d else s) s

/-- SENSOR_MODEL_TIMEOUT (R363): more than 60 s on an estimate, a sensor failure in the Almanac. -/
def execSensorModelTimeout (u : SensorUnit) (s : State) : Out :=
  onUnit (s.sensFitted u) (fun s =>
    match (s.sens (sensKey u)).model with
    | some t =>
      if s.ms ≤ t + 60000 || !s.fwRuns || s.almVal (almKey almSensor (sensKey u)) 0 != 0 then s
      else (s.setAlm (almKey almSensor (sensKey u)) 1).logCorrected srcSensor 127 (sensLoc u) 0#64 (sensScore u)
    | none => s) s

/-- A die of a region throttles (R365). -/
def State.regionHot (s : State) (r : Nat) : Bool :=
  if r < 32 then (blockDies r).any (fun d => (s.sens d).throttling)
    || (List.range 3).any (fun i => (s.sens (400 + 3 * r + i)).throttling)
  else (s.sens (384 + (r - 32))).throttling

/-- THROTTLE_STEP (R365, R379): a region that throttles goes down; one above 800 MHz goes back to it when the temperatures or
the budgets no longer allow more (R343); else a region rises toward the target asked for. -/
def execThrottleStep (region : Nat) (s : State) : Out :=
  onUnit (regionOk region) (fun s =>
    let code := s.regionCode region
    if !s.fwRuns then s
    else if s.regionHot region then
      let v := max (if region < 32 then 8 else 0x10) (code - 2)
      if code ≤ v then s
      else
        let raises := match s.power.freq with
          | some f => (List.range 40).any (fun r => s.regionCode r < f.targets.getD r 0)
          | none => false
        (if raises then s.freqAbandon else s).freqAsk (oneRegion region v) none
    else if region < 32 && 0x20 < code && !s.boostOk region then s.freqAsk (oneRegion region 0x20) none
    else
      let v := code + 1
      if v ≤ s.therm.asked.getD region 0x20 && s.targetsOk (oneRegion region v) then s.freqAsk (oneRegion region v) none else s) s

/-! Coolant, R369–R371. -/

/-- Effective flow as a fraction, in 0.01 L/min (R369), with the inferred flow when it is formed. -/
def State.inferred (s : State) : Option (Nat × Nat) :=
  let d := s.tout - s.tin
  if 2000 ≤ s.therm.measuredW && 32 ≤ d then some (16000 * s.therm.measuredW, 663 * d.toNat) else none

def State.effFlow (s : State) : Nat × Nat :=
  let fr := s.fld (domePage 4) FAC_VALUES_FLOW
  match s.inferred with
  | some (n, d) => if fr * d ≤ n then (fr, 1) else (n, d)
  | none => (fr, 1)

/-- The coolant ceiling that R370 computes, in W. -/
def State.coolant (s : State) : Nat :=
  let f := s.effFlow
  let t := min s.tin 640
  let k := if t ≤ 512 then 320 else (832 - t).toNat
  12000 * min f.1 (1400 * f.2) * k / (1400 * f.2 * 320)

/-- Compute dies that warm faster than 2 °C/s while their power changes by less than 10 % (R371). -/
def State.risers (s : State) : List Nat :=
  (List.range 384).filter (fun d =>
    let x := s.sens d
    let p := s.unitMw (.compute d)
    match x.was with
    | some (t, w) => decide (32 < 10 * (x.value - t)) && (p == w || decide (10 * ((p : Int) - (w : Int)).natAbs < w))
    | none => false)

/-- FLOW_RECOMPUTE (R369–R371). -/
def execFlowRecompute (s : State) : Out :=
  .next (if !s.fwRuns then s
    else
      let formed := s.fac.haveFlow && s.fac.haveTemp
      let c := s.coolant
      let c := if !s.therm.ceilFormed || c ≤ s.therm.ceilCool then c else min c (s.therm.ceilCool + 60)
      let s := { s with therm := { s.therm with ceilFormed := formed, ceilCool := if formed then c else s.therm.ceilCool } }
      let f := s.effFlow
      let s := (((s.setDome TH_PANEL_CEIL_COOL_W s.therm.ceilCool).setDome TH_PANEL_FLOW (min 65535 (f.1 / f.2))).setDome
        TH_PANEL_INLET ((s.tin / 16) % 256).toNat).setDome TH_PANEL_RISE (min 255 ((s.tout - s.tin) / 4).toNat)
      let l := s.risers
      let s := if 32 ≤ l.length && 4 ≤ ((List.range 32).filter (fun b => l.any (fun d => blockOf d == b))).length
        then s.holdBegin holdRise else s
      let s := { s with therm := { s.therm with unit := s.therm.unit.mapVals (fun k x =>
        if k < 384 && !x.reads.isEmpty then { x with was := some (x.value, s.unitMw (.compute k)) } else x) } }
      s.ceilSync)

/-! Thermal hold, R371–R373. -/

/-- A RETAIN frame for the core rows of every block, from the master of its link (R352, R371). -/
def State.retainAll (s : State) (enter : Bool) : State :=
  (List.range 32).foldl (fun s b =>
    match (s.pcl (chLink (50 * b))).master with
    | some m => s.pclFrame (chLink (50 * b)) m pclRetainType b (retainVal 600 true enter)
    | none => s) s

/-- The row clocks of every die in a list stop, or start. -/
def State.clocks (s : State) (run : Bool) (l : List Nat) : State :=
  l.foldl (fun s d => (s.setFld (spinePage d) CLK_STATUS_NORTH_RUN (b2n run)).setFld (spinePage d) CLK_STATUS_SOUTH_RUN (b2n run)) s

/-- Emergency off (R465): every handle ends, READY clears, and every channel outside the always-on group is lowered. -/
def State.panelOff (s : State) : State :=
  let s0 := s
  let s := s.completeAll stAbortPanel
  let s := ({ s with boot := { s.boot with ready := false } } : State).capSync s0
  (List.range 1616).foldl (fun s c => if alwaysOn c then s else s.chOff c) s

/-- THERMAL_HOLD_DRAINED (R371, steps 3 to 6; R465). -/
def execThermalHoldDrained (s : State) : Out :=
  .next (if s.therm.hold != 1 then s
    else
      let s := s.setHold 2
      let s := s.clocks false ((List.range 384).filter (fun d => (s.chan (spineCh d)).on))
      let s := { s with hbm := { s.hbm with selfRefresh := true } }
      let s := s.retainAll true
      let s := (List.range 384).foldl (fun s d => if s.inDew d then s.setFld (spinePage d) TH_STATUS_HEATER 0 else s) s
      let s := partIds.foldl (fun s q => if (s.prt q).live then s.pausePart q .thermal (some 3) else s) s
      if s.fac.estop == 2 then s.panelOff else s)

/-- Every compute die and stack reads 80 °C or below (R373). -/
def State.coolAll (s : State) : Bool :=
  (List.range 384).all (fun d => (s.sens d).value ≤ 1280)
    && (List.range 64).all (fun n => !s.part.hasStack n || (s.sens (600 + n)).value ≤ 1280)

/-- THERMAL_RESUME (R373): the conditions have held for 2 s. Dies in the dew state go back to its voltage (R376), RETUNE
locks the rings again and leaves the stripes as they are (R276), and cores of no partition run again too. -/
def execThermalResume (s : State) : Out :=
  .next (if s.therm.hold != 2 || s.fac.silent || s.fld (domePage 4) FAC_VALUES_FLOW < 900 || !s.coolAll || s.fac.estop != 0
        || !s.fwRuns then s
    else
      let s := { s with hbm := { s.hbm with selfRefresh := false }, therm := { s.therm with holdCauses := 0 } }
      let s := s.retainAll false
      let s := ((List.range 384).filter (fun d => s.inDew d)).foldl (fun s d =>
        (List.range 2).foldl (fun s h => s.retainCh (rowCh d h) 650 true) s) s
      let s := s.setHold 0
      let s := s.clocks true ((List.range 384).filter (fun d => (s.chan (spineCh d)).on && !s.inDew d && !(s.sens d).trip))
      let s := match s.power.freq with
        | some f => f.armed.foldl (fun (s : State) die => s.freqSwitch die) s
        | none => s
      let s := s.resumeSites ((s.cores.map (fun (e : Nat × Core) => e.1)).filter (fun g => 64 ≤ (s.core g).part))
      partIds.foldl (fun s q => if (s.prt q).live then s.unpausePart q .thermal true else s) s)

/-! The Ephemeris, R374, R375. -/

/-- What the planner expects partition q to draw at time t, in mW (R375). -/
def State.foreAt (s : State) (q t : Nat) : Nat :=
  let x := s.prt q
  if !s.foreLive q then x.measured
  else ((x.forecast.filter (fun (e : Nat × Nat) => x.forecastAt + e.1 ≤ t)).getLast?.map (fun (e : Nat × Nat) => e.2 * 1000)).getD x.measured

/-- The panel forecast at time t, in mW. -/
def State.panelFore (s : State) (t : Nat) : Nat :=
  ((partIds.filter (fun q => (s.prt q).live)).map (fun q => s.foreAt q t)).sum + s.poh

/-- Times within the next 30 s at which the panel forecast changes, with now. -/
def State.foreTimes (s : State) : List Nat :=
  s.ms :: partIds.flatMap (fun q => if !s.foreLive q then [] else
    ((s.prt q).forecast.map (fun (e : Nat × Nat) => (s.prt q).forecastAt + e.1)).filter (fun t => s.ms < t && t ≤ s.ms + 30000))

/-- PRECOOL_PLAN (R375): the request that stands, or none. -/
def execPrecoolPlan (s : State) : Out :=
  .next (if !s.fwRuns then s
    else
      let lim := (if s.therm.ceilFormed then s.therm.ceilCool else 12000) * 900
      let high := s.foreTimes.filter (fun t => lim < s.panelFore t)
      let p := ((high.map s.panelFore).foldl max 0) / 1000
      let flow := (200 * p + 663) / 1326
      let req : Option (Nat × Nat × Nat × Nat) :=
        if high.isEmpty then none
        else some (min 2400 flow, if 2400 < flow then ((max 240 (s.tin - 32)) % 65536).toNat else 0x8000,
                   high.foldl min (s.ms + 30000) - s.ms, p)
      { s with therm := { s.therm with precool := req } })

/-- PREWARM_START (R375): 2 s before a rise, the heaters of the partition's dies in the dew state. -/
def execPrewarmStart (part : Nat) (s : State) : Out :=
  onUnit (partOk part) (fun s => if s.rising part then (s.diesOf part).foldl (fun s d => s.heat d) s else s) s

/-- DEW_ENTER (R376): every core of the die has been idle for TH_CFG.DEW_S seconds. -/
def execDewEnter (d : Nat) (s : State) : Out :=
  onUnit (dieOk d) (fun s =>
    if s.inDew d || s.fld (spinePage d) TH_CFG_DEW_S == 0 || s.prewarmed d || s.therm.hold != 0 || !(s.chan (spineCh d)).on
        || !(s.rowIdle d false && s.rowIdle d true) then s
    else
      let s := (s.clocks false [d]).setFld (spinePage d) TH_STATUS_DEW 1
      let s := (List.range 2).foldl (fun s h => s.retainCh (rowCh d h) 650 true) s
      if (s.active (List.range 384)).isEmpty then
        (List.range 384).foldl (fun s e => if s.inDew e then s.setFld (spinePage e) TH_STATUS_HEATER 0 else s) s
      else s.heat d) s

/-- R377 for one die: its counter, and whether a cycle has ended. -/
def Sensed.cycle (x : Sensed) : Sensed × Bool :=
  let t := x.value
  if !x.dirUp then
    let lo := min x.lo t
    if 320 < t - lo then ({ x with lo := lo, dirUp := true, hi := t }, false) else ({ x with lo := lo }, false)
  else
    let hi := max x.hi t
    if 320 < hi - t then ({ x with hi := hi, dirUp := false, lo := t }, true) else ({ x with hi := hi }, false)

/-- THERMAL_CYCLE_COUNT (R377). -/
def execThermalCycleCount (s : State) : Out :=
  .next (if !s.fwRuns then s
    else (List.range 384).foldl (fun s d =>
      let x := s.sens d
      if x.reads.isEmpty then s
      else
        let r := x.cycle
        let s := s.setSens d r.1
        if r.2 then (s.addSat (spinePage d) TH_STATUS_CYCLES 1).setAlm (almKey almCycles d) (s.almVal (almKey almCycles d) 0 + 1)
        else s) s)

end Sys2Proof.Machine
end

