-- ==== Sys2Proof/Machine/Facility.lean ====
section
/-! DEFINITION. The facility port: the frame checker of either channel (R458, R459), copies (R460), the messages and what
the panel does on each (R461–R463), silence (R464), emergency stop (R465), and the frames the panel sends (R461). -/

namespace Sys2Proof.Machine

/-! The frame checker, R456–R459. -/

def State.facCh (s : State) (c : Nat) : FacChan := s.fac.ch.getD c FacChan.reset
def State.setFacCh (s : State) (c : Nat) (x : FacChan) : State := { s with fac := { s.fac with ch := s.fac.ch.set c x } }

/-- The channel's isolator die has its supply, and a management die its frame checker (R456, R459). -/
def State.facHears (s : State) (c : Nat) : Bool :=
  (s.chan (1612 + 2 * c)).on && (s.boot.c0.powered || s.boot.c1.powered)

/-- A counter that M0 and M1 both keep, which saturates. -/
def State.facCount (s : State) (F : Fld) (n : Nat) : State := (s.addSat (domePage 4) F n).addSat (domePage 5) F n

/-- The alive counter of a frame whose CRC passes (R459): the state of the checker, and whether the frame is accepted. -/
def State.facCheck (s : State) (c : Nat) (alive : BitVec 8) : State × Bool :=
  let x := s.facCh c
  let d := (alive - x.last).toNat
  let taken : FacChan := { up := true, base := false, last := alive, run := 0 }
  if !s.facHears c then (s, false)
  else if x.base then ((s.setFacCh c taken).facCount (FAC_CH_RESYNCS c) 1, true)
  else if d == 0 then (s.facCount (FAC_CH_REPEATS c) 1, false)
  else if d ≤ 4 then ((s.setFacCh c taken).facCount (FAC_CH_GAPS c) (d - 1), true)
  else ((s.setFacCh c { x with run := x.run + 1, base := x.run == 2 }).facCount (FAC_CH_REJECTS c) 1, false)

/-- FAC_FRAME_CRC_ERROR (R458). -/
def execFacFrameCrcError (ch : Nat) (s : State) : Out :=
  onUnit (facOk ch) (fun s => if s.facHears ch then s.facCount (FAC_CH_CRC_ERR ch) 1 else s) s

/-- FAC_FRAME_MALFORMED (R458): the counter of a frame that is discarded still counts as accepted. -/
def execFacFrameMalformed (ch : Nat) (alive : BitVec 8) (s : State) : Out :=
  onUnit (facOk ch) (fun s =>
    let r := s.facCheck ch alive
    if r.2 then r.1.facCount (FAC_CH_BAD ch) 1 else r.1) s

/-- FAC_CHANNEL_DOWN (R459, R464): nothing has been accepted on the channel for 500 ms. -/
def execFacChannelDown (ch : Nat) (s : State) : Out :=
  onUnit (facOk ch) (fun s => s.setFacCh ch { s.facCh ch with up := false, base := true }) s

/-! Messages, R460–R463, R465. -/

def mtHeartbeat : Nat := 1
def mtCeiling : Nat := 2
def mtFlow : Nat := 3
def mtInletTemp : Nat := 4
def mtVpmStatus : Nat := 5
def mtPrecool : Nat := 6
def mtPanelStatus : Nat := 7
def mtEstop : Nat := 8

/-- The higher of two signed 16-bit temperatures. -/
def hotter (a b : Nat) : Nat := if sgn a 16 < sgn b 16 then b else a

/-- The more cautious of two payloads of one type (R460): `a` is the one acted on. -/
def cautious (type a b : Nat) : Nat :=
  if type == mtCeiling || type == mtFlow then min a b
  else if type == mtEstop then max a b
  else if type == mtInletTemp then hotter (a % 65536) (b % 65536) + 65536 * hotter (a / 65536) (b / 65536)
  else a

/-- What a facility HEARTBEAT's payload names (R461). -/
def hbSeq (v : Nat) : Nat := v / 2 ^ 16 % 256
def hbPort (v : Nat) : Nat := v / 2 ^ 24 % 4
def hbValid (v : Nat) : Bool := v / 2 ^ 31 % 2 == 1
def hbFunc (v : Nat) : Nat := v / 2 ^ 32 % 64

/-- A grant of the role (R312, R463), recorded in every case. -/
def State.grant (s : State) (v : Nat) : State :=
  let s := { s with fac := { s.fac with grantSeq := hbSeq v, grantSeen := [] } }
  if hbValid v && (s.port (hbPort v)).up && s.hasFunc (hbPort v) (hbFunc v) then
    let s := s.setAdmin (some (hbPort v, hbFunc v))
    { s with panel := { s.panel with adminByFacility := true } }
  else s

/-- GRANT_SEQ of a HEARTBEAT accepted on channel c (R463): with both channels up it takes frames of both. -/
def State.grantSeen (s : State) (c v : Nat) : State :=
  if hbSeq v == s.fac.grantSeq then s
  else
    let key := v / 2 ^ 16
    let both := (s.facCh 0).up && (s.facCh 1).up
    let other := match s.fac.grantSeen.find (1 - c) with
      | some (k, t) => k == key && s.ms ≤ t + 100
      | none => false
    if !hbValid v || !both || other then s.grant v
    else { s with fac := { s.fac with grantSeen := s.fac.grantSeen.set c (key, s.ms) } }

/-- The facility is heard again (R464). -/
def State.silenceEnd (s : State) : State :=
  if !s.fac.silent then s
  else ({ s with fac := { s.fac with silent := false, held := false }, panel := { s.panel with facilityUp := true } } : State).capSync s

/-- Emergency stop (R465): a stronger action replaces a weaker one, and 0 ends it; after `off` the panel resets. -/
def State.estop (s : State) (v : Nat) : State :=
  if v == 0 then
    { s with
      fac := { s.fac with estop := 0 }
      boot := { s.boot with resetPending := s.boot.resetPending || s.fac.estop == 2 } }
  else if v ≤ s.fac.estop then s
  else
    let s := ({ s with fac := { s.fac with estop := v } } : State).holdBegin holdEstop
    if v == 2 && s.therm.hold == 2 then s.panelOff else s

/-- What the panel does on an accepted message (R462). -/
def State.facAct (s : State) (type v : Nat) : State :=
  if type == mtCeiling then
    let c := max 1200 (min 12000 v)
    { s.setDome FAC_VALUES_CEILING_W c with fac := { s.fac with ceilNext := some c } }
  else if type == mtFlow then
    let s := s.setDome FAC_VALUES_FLOW v
    let s := { s with fac := { s.fac with haveFlow := true } }
    if v < 360 && !s.fac.silent then s.holdBegin holdFlow else s
  else if type == mtInletTemp then
    let s := (s.setDome FAC_VALUES_TIN (v % 65536)).setDome FAC_VALUES_TOUT (v / 65536)
    { s with fac := { s.fac with haveTemp := true } }
  else if type == mtVpmStatus then
    let s := s.setDome FAC_STATUS_BACKUP_S (v / 2 ^ 24)
    ({ s with fac := { s.fac with onBackup := v / 2 ^ 16 % 2 == 1, feed := v % 2 ^ 18 } } : State).ceilSync
  else if type == mtEstop then s.estop v
  else { s with fac := { s.fac with rack := v % 65536 } }.silenceEnd

/-- A frame that has passed the checker: acted on, a copy (R460), or kept until firmware runs (R459). -/
def State.facAccept (s : State) (c type cnt v : Nat) : State :=
  if !s.fwRuns then
    { s with fac := { s.fac with early := s.fac.early.set type v } }
  else
    let s := if type == mtHeartbeat then s.grantSeen c v else s
    let fresh := fun (s : State) =>
      ({ s with fac := { s.fac with acted := s.fac.acted.set (256 * type + cnt) (cnt, c, v, s.ms) } } : State).facAct type v
    match s.fac.acted.find (256 * type + cnt) with
    | some (cnt', c', v', t) =>
      if cnt' == cnt && c' != c && s.ms ≤ t + 50 then
        if v == v' then s
        else
          let s := s.facCount FAC_STATUS_CONFLICTS 1
          let w := cautious type v' v
          if w == v' then s
          else ({ s with fac := { s.fac with acted := s.fac.acted.set (256 * type + cnt) (cnt', c', w, t) } } : State).facAct type w
      else fresh s
    | none => fresh s

/-- Firmware starts: the values last accepted are applied, and a grant is acted on (R459). -/
def State.facStart (s : State) : State :=
  let l := s.fac.early
  let s := { s with fac := { s.fac with early := [] } }
  l.foldl (fun s (e : Nat × Nat) =>
    let s := s.facAct e.1 e.2
    if e.1 == mtHeartbeat && hbSeq e.2 != s.fac.grantSeq then s.grant e.2 else s) s

/-- A facility frame of a message type. -/
def facFrame (type ch : Nat) (alive : BitVec 8) (v : Nat) (ok : Bool) (s : State) : Out :=
  onUnit (facOk ch) (fun s =>
    let r := s.facCheck ch alive
    if !r.2 then r.1
    else if ok then r.1.facAccept ch type alive.toNat v
    else r.1.facCount (FAC_CH_BAD ch) 1) s

/-- FAC_HEARTBEAT (R462, R463): bits [30:26] and [63:38] are zero. -/
def execFacHeartbeat (ch : Nat) (alive : BitVec 8) (v : W64) (s : State) : Out :=
  facFrame mtHeartbeat ch alive v.toNat (bits v 30 26 == 0 && bits v 63 38 == 0) s

/-- FAC_CEILING (R462). -/
def execFacCeiling (ch : Nat) (alive : BitVec 8) (v : W32) (s : State) : Out :=
  facFrame mtCeiling ch alive v.toNat true s

/-- FAC_FLOW (R462). -/
def execFacFlow (ch : Nat) (alive : BitVec 8) (v : BitVec 16) (s : State) : Out :=
  facFrame mtFlow ch alive v.toNat true s

/-- FAC_INLET_TEMP (R462). -/
def execFacInletTemp (ch : Nat) (alive : BitVec 8) (v : W32) (s : State) : Out :=
  facFrame mtInletTemp ch alive v.toNat true s

/-- FAC_VPM_STATUS (R462): bits [23:18] are zero. -/
def execFacVpmStatus (ch : Nat) (alive : BitVec 8) (v : W32) (s : State) : Out :=
  facFrame mtVpmStatus ch alive v.toNat (v.toNat / 2 ^ 18 % 64 == 0) s

/-- FAC_ESTOP (R465): an action of 3 or more is malformed. -/
def execFacEstop (ch : Nat) (alive : BitVec 8) (v : BitVec 8) (s : State) : Out :=
  facFrame mtEstop ch alive v.toNat (v.toNat < 3) s

/-! Silence, R464. -/

/-- FACILITY_SILENT: no HEARTBEAT on either channel for 500 ms. -/
def execFacilitySilent (s : State) : Out :=
  .next (if s.fac.silent || !s.fwRuns then s
    else ({ s with fac := { s.fac with silent := true, held := true }, panel := { s.panel with facilityUp := false } } : State).capSync s)

/-- SILENT_HOLD_END: 5 s later the facility ceiling is the safe one, and a CEILING notice is sent, whether or not the ceiling in
force changes. -/
def execSilentHoldEnd (s : State) : Out :=
  .next (if !s.fac.silent || !s.fac.held then s
    else
      let s : State := { s with
        fac := { s.fac with held := false, safe := true, haveFlow := false, haveTemp := false }
        therm := { s.therm with ceilFormed := false } }
      if s.ceilingNow == s.panel.ceilingW then s.noticeAll noteCeiling s.panel.ceilingW 0 0 else s.ceilSync)

/-! What the panel sends, R461. -/

/-- The controller that frames leave from (R344, R456). -/
def State.sender (s : State) : Nat := if s.boot.c0.running then 0 else 1

def State.isSole (s : State) : Bool := s.boot.c0.sole || s.boot.c1.sole

/-- Payload bytes of the messages the panel sends (R461). -/
def facLen (type : Nat) : Nat := if type == mtHeartbeat then 4 else if type == mtPrecool then 8 else 16

/-- The bytes of a facility frame (R457): SYNC, type, length, alive counter, payload, and CRC-32C from the type on. -/
def facBytes (type alive : Nat) (payload : List Byte) : List Byte :=
  let body := toBytes (type % 256) 1 ++ toBytes (payload.length % 256) 1 ++ toBytes (alive % 256) 1 ++ payload
  toBytes 0xD5 1 ++ body ++ toBytes (crc32c body).toNat 4

/-- The last frame of a type that the panel has sent, as it goes over the line. -/
def State.sentBytes (s : State) (type : Nat) : List Byte :=
  match s.fac.sent.find type with
  | some (n, v) => facBytes type n (toBytes v (facLen type))
  | none => []

/-- A frame leaves on both channels with the next counter, which context 2 of unit 0 numbers (R460, R468). -/
def State.facSend (s : State) (type payload : Nat) : State :=
  { s with fac := { s.fac with txCount := s.fac.txCount + 1#8,
                               sent := s.fac.sent.set type ((s.fac.txCount + 1#8).toNat, payload) } }

/-- PANEL_HEARTBEAT. -/
def execPanelHeartbeat (s : State) : Out :=
  .next (if !s.fwRuns then s
    else s.facSend mtHeartbeat (b2n s.boot.ready + 2 * b2n s.isSole + 4 * s.sender + 8 * b2n (s.therm.hold != 0)))

/-- The highest temperature of the units with readings, 0 when there are none. -/
def State.hottest (s : State) (l : List Nat) : Int :=
  let t := (l.filter (fun k => !(s.sens k).reads.isEmpty)).map (fun k => (s.sens k).value)
  t.foldl max (t.headD 0)

/-- PANEL_STATUS. -/
def execPanelStatus (s : State) : Out :=
  .next (if !s.fwRuns then s
    else
      let fi := match s.inferred with | some (n, d) => min 65535 (n / d) | none => 0
      let die := (s.hottest (List.range 384) % 65536).toNat
      let stack := (s.hottest ((List.range 64).map (fun n => 600 + n)) % 65536).toNat
      s.facSend mtPanelStatus (min 65535 s.therm.measuredW + s.panel.ceilingW * 2 ^ 16 + fi * 2 ^ 32 + die * 2 ^ 48
        + stack * 2 ^ 64 + s.therm.hold * 2 ^ 80 + b2n s.boot.ready * 2 ^ 82 + s.fac.estop * 2 ^ 88))

/-- PRECOOL: while a request stands, and once more with FLOW_REQ 0 to withdraw it. -/
def execPrecool (s : State) : Out :=
  .next (if !s.fwRuns then s
    else match s.therm.precool with
    | some (flow, inlet, lead, w) => s.facSend mtPrecool (flow + inlet * 2 ^ 16 + lead * 2 ^ 32 + min 65535 (w / 10) * 2 ^ 48)
    | none => match s.fac.sent.find mtPrecool with
      | some (_, p) => if p % 65536 == 0 then s else s.facSend mtPrecool (0x8000 * 2 ^ 16)
      | none => s)

end Sys2Proof.Machine
end

