-- ==== Sys2Proof/Machine/Startup.lean ====
section
/-! DEFINITION. Power applied and lost (R349, R424, R475), the panel reset (R436), host ports during start-up (R427), the
boot ROMs (R437–R440), the two halves (R429, R430), and the steps of a cold start up to READY (R424–R426, R431–R435). -/

namespace Sys2Proof.Machine

/-! What survives, R436, R475. -/

/-- A controller whose management die has lost its state: its non-volatile store and fuses remain. -/
def Ctl.kept (c : Ctl) : Ctl :=
  { Ctl.reset with slotA := c.slotA, slotB := c.slotB, activeB := c.activeB, pending := c.pending, fuses := c.fuses }

/-- PERST_N is the host's. -/
def Port.kept (x : Port) : Port := { Port.reset with perst := x.perst }

/-- A panel that has lost its power: the part, the Almanacs, the stores and fuses of M0 and M1, and host memory remain, and
a dark block's input stage stays off (R357). -/
def State.cold (s : State) : State :=
  { State.reset with
    part := s.part, alm := s.alm, free := s.free, pending := s.pending
    mem := s.mem.filter (fun c => hostBase 0 ≤ c.1)
    ports := s.ports.mapVals (fun _ x => x.kept)
    power := { Power.reset with darkBlocks := s.power.darkBlocks }
    boot := { Boot.reset with c0 := s.boot.c0.kept, c1 := s.boot.c1.kept, revoked := s.boot.revoked, opKeys := s.boot.opKeys } }

/-- VPM_INPUT_FAULT (R475): every channel loses its output. -/
def execVpmInputFault (s : State) : Out := .next (if s.power.vpmIn then s.cold else s)

/-- Dies that carry references (R335). -/
def State.refDies (s : State) : List Nat := (List.range 532).filter (fun d => refDieOk d && s.hasDie d)

/-- The management dies leave power-on reset, with every link of the power module trained and without a master. -/
def State.wake (s : State) : State :=
  let s := { s with boot := { s.boot with c0 := { s.boot.c0 with powered := true }, c1 := { s.boot.c1 with powered := true } } }
  (List.range 8).foldl (fun s n => s.setPcl n { Pcl.reset with up := true }) s

/-- COLD_START (R424, steps 1 and 2): the always-on group rises. -/
def execColdStart (s : State) : Out :=
  .next (if s.power.vpmIn then s
    else
      let s := s.cold
      let s := { s with power := { s.power with vpmIn := true } }
      let s := (List.range 1616).foldl (fun s c => if alwaysOn c && s.chFitted c then s.chOn c 0 else s) s
      let s := s.refDies.foldl (fun s d => s.setRef d { s.ref d with aOk := true, bOk := true }) s
      s.wake)

/-- The panel reset of R436: completion rings take what fits, every channel outside the always-on group is lowered, links go
down, and start-up begins at step 2. The debug latch stays (R448), and so does an update that asked for it (R452). -/
def State.panelReset (s : State) : State :=
  let s := s.funcs.foldl (fun s (e : Nat × Func) => s.cqFlush (e.1 / 64) (e.1 % 64)) s
  let n := s.cold
  let n := { n with
    power := { n.power with vpmIn := true, aon := s.power.aon, aonAt := s.power.aonAt, inputMv := s.power.inputMv, inputMa10 := s.power.inputMa10,
                            ch := s.power.ch.filter (fun e => alwaysOn e.1), energy := s.power.energy }
    ports := s.ports.mapVals (fun _ x => { x.kept with everUp := x.everUp })
    panel := { n.panel with lastEnergy := s.panel.lastEnergy }
    boot := { n.boot with unlocked := s.boot.unlocked, scope := s.boot.scope, update := s.boot.update }
    handles := s.handles.filter (fun (h : Handle) => match s.boot.update with | some u => u.handle == h.h | none => false) }
  let n := s.power.refs.foldl (fun n (e : Nat × RefState) => n.setRef e.1 e.2) n
  n.wake

/-- A reset that is due under R390 or R465 takes place. -/
def State.resetDue (s : State) : State := if s.boot.resetPending then s.panelReset else s

/-! Host ports, R427. -/

/-- The port answers once it is out of reset and PERST_N is deasserted. -/
def State.portReady (s : State) (p : Nat) (x : Port) : State := s.setPort p { x with answers := x.pgood && !x.perst }

/-- PGOOD_ASSERT. -/
def execPgoodAssert (p : Nat) (s : State) : Out :=
  onUnit (s.part.hasPort p) (fun s =>
    if (s.chan (1600 + 2 * p)).on && (s.chan (1601 + 2 * p)).on && !(s.port p).lost then
      s.portReady p { s.port p with pgood := true }
    else s) s

/-- PERST_DEASSERT. -/
def execPerstDeassert (p : Nat) (s : State) : Out :=
  onUnit (s.part.hasPort p) (fun s => s.portReady p { s.port p with perst := false }) s

/-- PERST_ASSERT: a link-down of that port (R309). -/
def execPerstAssert (p : Nat) (s : State) : Out :=
  onUnit (s.part.hasPort p) (fun s =>
    let s := s.linkGone p
    s.portReady p { s.port p with perst := true }) s

/-! Boot ROMs, R437–R440. -/

def Ctl.slot (c : Ctl) (b : Bool) : Slot := if b then c.slotB else c.slotA
def Ctl.setSlot (c : Ctl) (b : Bool) (x : Slot) : Ctl := if b then { c with slotB := x } else { c with slotA := x }
def State.setCtl (s : State) (m : Nat) (c : Ctl) : State := { s with boot := s.boot.setCtl m c }

/-- What a firmware image's bytes say (R437), and how the checks of R438 that do not depend on fuses come out: a header of 8 KiB,
then the body. -/
def imageOf (l : List Byte) : FwImage :=
  let w := blkWord l
  let ed := sliceBytes l 0x48 32
  let ml := sliceBytes l 0x68 1952
  let d := sha384 (sliceBytes l 0 0x1000)
  let body := l.drop 0x2000
  let edSlot := bits (w 0) 51 48
  let mlSlot := bits (w 0) 55 52
  { magicOk := bits (w 0) 31 0 == 0x4C594E44 && bits (w 0) 47 32 == 1
    svn := bits (w 0) 63 56, mlSlot := mlSlot, edSlot := edSlot
    peerMin := BitVec.ofNat 32 (bits (w 1) 63 32), version := BitVec.ofNat 32 (bits (w 1) 31 0)
    keysOk := decide (edSlot < 4) && decide (mlSlot < 4) && sha384 ed == Config.imageRoot 1 edSlot
      && sha384 ml == Config.imageRoot 2 mlSlot
    bodyOk := body.length == (w 2).toNat && sliceBytes l 0x18 48 == digestBytes (sha384 body)
    edSigOk := Config.sigVerify 1 (sha384 ed) d (ofBytes (sliceBytes l 0x1000 64))
    mlSigOk := Config.sigVerify 2 (sha384 ml) d (ofBytes (sliceBytes l 0x1040 3309))
    digest := d }

/-- The fuse count in use (R440): the higher of the two dies'. -/
def State.fuseCount (s : State) : Nat := max s.boot.c0.fuses s.boot.c1.fuses

/-- The checks of R438. -/
def State.imageOk (s : State) (i : FwImage) : Bool :=
  i.magicOk && !s.boot.revoked.contains (1, i.edSlot) && !s.boot.revoked.contains (2, i.mlSlot) && i.keysOk && i.bodyOk
    && i.edSigOk && i.mlSigOk && s.fuseCount ≤ i.svn

def State.slotOk (s : State) (m : Nat) (b : Bool) : Option FwImage :=
  let x := (s.boot.ctl m).slot b
  match x.img with
  | some i => if !x.bad && s.imageOk i then some i else none
  | none => none

/-- Links of controller m (R350, R429). -/
def ctlLinks (m : Nat) : List Nat := (List.range 4).map (fun i => 4 * m + i)

/-- Controller m claims a link (R355). -/
def State.claim (s : State) (m n : Nat) : State :=
  if s.power.vpmIn && (s.pcl n).up && s.claimOk n m then s.takeLink n m else s

/-- Its master releases a link. -/
def State.release (s : State) (n : Nat) : State :=
  let x := s.pcl n
  match x.master with
  | some m => s.setPcl n { x with master := none, released := some m, beat := s.power.aon }
  | none => s

/-- Firmware starts from slot b. -/
def State.startFw (s : State) (m : Nat) (b : Bool) (i : FwImage) : State :=
  let c := s.boot.ctl m
  let first := !s.fwRuns
  let s := s.setCtl m { c with running := true, recovery := false, runB := b, version := i.version, svn := i.svn,
                               digest := i.digest, fuses := s.fuseCount, stage := max c.stage 2, heard := false,
                               aliasFuses := s.fuseCount, aliasDebug := s.boot.debugState }
  if first then s.facStart else s

/-- Steps 2 and 3 of R424 for one controller, with the choice of R439; a controller that restarts does not claim its links
here (R436). -/
def State.romBoot (s : State) (m : Nat) : State :=
  let c := s.boot.ctl m
  if !c.powered || c.running then s
  else
    let s0 := s
    let s := if c.restarting then s
      else
        let s := (ctlLinks m).foldl (fun s n => s.claim m n) s
        [m, m + 2].foldl (fun s p =>
          if s.part.hasPort p && (s.pcl (chLink (1600 + 2 * p))).master == some m && !(s.chan (1600 + 2 * p)).on then
            (s.chOn (1600 + 2 * p) 0).chOn (1601 + 2 * p) 0
          else s) s
    let s := match c.pending with
      | some b =>
        if (s.slotOk m b).isSome then s
        else
          let c := s.boot.ctl m
          s.setCtl m { c.setSlot b { c.slot b with bad := true } with pending := none }
      | none => s
    let c := s.boot.ctl m
    let order := (match c.pending with | some b => [b] | none => []) ++ [c.activeB, !c.activeB]
    match order.find? (fun b => (s.slotOk m b).isSome) with
    | some b =>
      match s.slotOk m b with
      | some i => (s.startFw m b i).capSync s0
      | none => s
    | none =>
      let s := s.setCtl m { c with recovery := true }
      (ctlLinks m).foldl (fun s n => if (s.pcl n).master == some m then s.release n else s) s

/-- ROM_BOOT. -/
def execRomBoot (m : Nat) (s : State) : Out := onUnit (ctlOk m) (fun s => s.resetDue.romBoot m) s

/-- PENDING_IMAGE_TIMEOUT (R439): the pending image has not reported itself running for 10 s. -/
def execPendingImageTimeout (m : Nat) (s : State) : Out :=
  onUnit (ctlOk m) (fun s =>
    let c := s.boot.ctl m
    if !c.running || c.pending != some c.runB || !(c.restarting || c.stage == 2) then s
    else
      let s := s.setCtl m { c.setSlot c.runB { c.slot c.runB with bad := true } with
        pending := none, running := false, version := 0#32, svn := 0, digest := 0#384 }
      s.romBoot m) s

/-- ROM_RECOVERY_IMAGE (R439): chunks of an image over DOE; the last makes it whole, and it is written to slot A when it
passes R438. -/
def execRomRecoveryImage (m : Nat) (chunk : List Byte) (last : Bool) (s : State) : Out :=
  onUnit (ctlOk m) (fun s =>
    let c := s.boot.ctl m
    if !c.recovery then s
    else if !last then s.setCtl m { c with chunks := c.chunks ++ chunk }
    else
      let img := imageOf (c.chunks ++ chunk)
      if s.imageOk img then s.setCtl m { c with chunks := [], slotA := ⟨some img, false⟩, recovery := false }
      else s.setCtl m { c with chunks := [] }) s

/-! The halves, R429, R430, R435. -/

/-- The controller that brings up half h: its own, or the other when it runs alone. -/
def State.halfCtl (s : State) (h : Nat) : Option Nat :=
  if (s.boot.ctl h).running then some h
  else if (s.boot.ctl (1 - h)).running && (s.boot.ctl (1 - h)).sole then some (1 - h)
  else none

def State.setStage (s : State) (m n : Nat) : State := s.setCtl m { s.boot.ctl m with stage := n }

/-- HALF_POWER_UP (R424, step 4): the remaining channels of a half, but not those of a dark block. -/
def execHalfPowerUp (m : Nat) (s : State) : Out :=
  onUnit (ctlOk m) (fun s =>
    match s.halfCtl m with
    | none => s
    | some c =>
      if (s.boot.ctl m).stage != 2 then s
      else
        let l := (List.range 1616).filter (fun ch => chLink ch / 4 == m && !alwaysOn ch && s.chFitted ch && !(s.chan ch).on
          && (s.pcl (chLink ch)).master == some c && !(ch < 1600 && s.power.darkBlocks.contains (ch / 50)))
        let s := l.foldl (fun s ch => match railOf ch with
          | .row d h => s.chOn ch (rowVolts d h (s.regionCode (blockOf d)))
          | _ => s.chOn ch 0) s
        s.setStage m 3) s

/-- The half that a failed unit lies in. -/
def failHalf : TestFail → Nat
  | .site g => b2n (eastDie (dieOfSite g))
  | .row g _ _ => b2n (eastDie (dieOfSite g))
  | .die d => b2n (eastDie d)
  | .baseDie u => b2n (eastBlock (u / 3))
  | .slice k => b2n (eastBlock (k / 128))
  | .lane r _ _ => b2n (eastDie r)
  | .engine b => b2n (eastBlock b)
  | .domeDie i => i % 2

/-- The unit exists on the part. -/
def State.failFitted (s : State) : TestFail → Bool
  | .site g => siteOk g
  | .row g bank row => siteOk g && decide (bank < 24) && decide (row < 1088)
  | .die d => dieOk d
  | .baseDie u => baseOk u
  | .slice k => sliceOk k && s.part.hasStack (k / 64)
  | .lane r p l => linkOk r p && (nbr r p).isSome && decide (l < 1056)
  | .engine b => blockOk b && s.part.hasTransit
  | .domeDie i => s.part.hasDome i

/-- The unit in which a unit's segment insertion bit sits (R432): a base die, or none for the test access controller. -/
def segAbove (u : Nat) : Option Nat :=
  if u < 384 then some (400 + baseOf u)
  else if 600 ≤ u then some (400 + 3 * ((u - 600) / 2) + 2 * ((u - 600) % 2))
  else if 500 ≤ u then some (400 + 3 * (u - 500) + 1)
  else none

/-- A unit that a test has found unreachable or out of order as a whole (R434). -/
def TestFail.unit : TestFail → Option Nat
  | .die d => some d
  | .baseDie u => some (400 + u)
  | .engine b => some (500 + b)
  | .domeDie i => some (384 + i)
  | _ => none

/-- Units of a half whose segments open (R431, R432): fitted, of a block that is not dark, reached, and not behind one that
is not. -/
def State.segsOf (s : State) (m : Nat) (fails : List TestFail) : List Nat :=
  let out := fails.filterMap TestFail.unit
  (List.range 664).filter (fun u =>
    (s.hasDie u || (600 ≤ u && s.part.hasStack (u - 600)))
      && (match segBlock u with
        | some b => b2n (eastBlock b) == m && !s.power.darkBlocks.contains b
        | none => u % 2 == m)
      && !out.contains u && !(match segAbove u with | some a => out.contains a | none => false))

/-- CHAIN_TEST (R424, step 5; R431, R432, R434): the segments of a half that open, and what its tests have found. -/
def execChainTest (m : Nat) (fails : List TestFail) (s : State) : Out :=
  onUnit (ctlOk m && fails.all (fun f => failHalf f == m && s.failFitted f)) (fun s =>
    match s.halfCtl m with
    | none => s
    | some _ =>
      if (s.boot.ctl m).stage != 3 then s
      else
        let s := { s with boot := { s.boot with fails := s.boot.fails ++ fails,
                                                segs := (s.boot.segs ++ s.segsOf m fails).eraseDups } }
        s.setCtl m { s.boot.ctl m with tested := true, stage := 4 }) s

/-- A scratchpad row is mapped out to a FREE spare, in the Almanac (R206, R207, R434); with none left the site fails. -/
def State.mapOut (s : State) (g bank row : Nat) : State :=
  let key := fun e => almKey almMap (2048 * g + 64 * bank + e)
  let s := if row < 1024 then s else s.setAlm (key (row - 1024)) (2 * 1024)
  let lost := if row < 1024 then some row
    else
      let v := s.almVal (key (row - 1024)) 0
      if v / 1024 == 1 then some (v % 1024) else none
  match lost with
  | none => s
  | some r =>
    match (List.range 64).find? (fun e => s.almVal (key e) 0 / 1024 == 0) with
    | some e => s.setAlm (key e) (1024 + r)
    | none => s.setSite g siteFailedField

/-- A site that fails at start-up: its row spare counts in its place (R401). -/
def State.failSite (s : State) (g : Nat) : State :=
  let was := s.siteState g
  if was != siteCounted && was != siteSpare then s
  else
    let s := s.setSite g siteFailedField
    if was == siteCounted then
      match s.rowSpare g with
      | some t => s.setSite t siteCounted
      | none => s
    else s

/-- One outcome of R434. -/
def State.applyFail (s : State) (f : TestFail) : State :=
  match f with
  | .site g => s.failSite g
  | .row g bank row =>
    let was := s.siteState g
    let s := s.mapOut g bank row
    if s.siteState g == siteFailedField && was == siteCounted then
      match s.rowSpare g with
      | some t => s.setSite t siteCounted
      | none => s
    else s
  | .die d => if s.dieState d == dieDark then s else s.setDie d dieRetired
  | .baseDie u =>
    let s := s.setAlm (almKey almBase u) 2
    (baseDies u).foldl (fun s d => if s.dieState d == dieDark then s else s.setDie d dieRetired) s
  | .slice k => { s with hbm := { s.hbm with downNow := setIns s.hbm.downNow k } }
  | .lane r p lane => s.setAlm (almKey almLane (8192 * r + 2048 * p + lane)) 1
  | .engine b => s.setAlm (almKey almPhot b) 2
  | .domeDie i => s.domeLost i

/-- Of two copies of the entries, each from the one with the higher change number among those readable (R395, R435). -/
def almMerge (a b : Tab AlmEntry) : Tab AlmEntry :=
  b.foldl (fun (t : Tab AlmEntry) (e : Nat × AlmEntry) =>
    match t.find e.1 with
    | none => t.set e.1 e.2
    | some x => if e.2.ok && (!x.ok || x.stamp < e.2.stamp) then t.set e.1 e.2 else t) a

/-- Both copies from what is merged; a controller alone uses its own (R435). -/
def State.almJoin (s : State) : State :=
  let m := if s.boot.c0.sole then s.alm.copy0 else if s.boot.c1.sole then s.alm.copy1 else almMerge s.alm.copy0 s.alm.copy1
  { s with alm := { s.alm with copy0 := m, copy1 := m } }

/-- ALMANAC_MERGE (R424, step 6; R435). -/
def execAlmanacMerge (s : State) : Out :=
  .next (if s.boot.c0.stage != 4 || s.boot.c1.stage != 4 || !s.fwRuns then s
    else
      let s := s.almJoin
      if s.alm.copy0.any (fun e => !e.2.ok) then s.uncontained srcAlmanac locNone
      else
        let s := s.boot.fails.foldl (fun s f => s.applyFail f) s
        let s := { s with boot := { s.boot with fails := [], mergedOk := true } }
        (s.setStage 0 5).setStage 1 5)

/-- Block b has power. -/
def State.blockFed (s : State) (b : Nat) : Bool := !s.power.darkBlocks.contains b && (s.chan (50 * b + 36)).on

/-- The routers of base die u can run. -/
def State.baseRuns (s : State) (u : Nat) : Bool := s.baseState u == 0 && s.blockFed (u / 3)

/-- The links of router r to routers that run are trained; the Meridian crossings with `cross` (R257, R425). -/
def State.trainLinks (s : State) (r : Nat) (cross : Bool) : State :=
  (List.range 4).foldl (fun s p =>
    match nbr r p with
    | some q =>
      if crosses r p != cross || !s.baseRuns (baseOf r) || !s.baseRuns (baseOf q) then s
      else
        let bad := (List.range 1056).filter (fun l => s.almVal (almKey almLane (8192 * r + 2048 * p + l)) 0 == 1)
        let one := bad.filter (fun l => l < 1024 && (bad.filter (fun m => laneGroup m == laneGroup l)).length == 1)
        let s := if bad.isEmpty then s else s.setLink r p { s.link r p with failed := bad, spared := one }
        s.linkRise r p
    | none => s) s

/-- Post-package repair of the rows recorded in the Almanac, in the stacks whose interfaces train (R222, R425). -/
def State.repairRows (s : State) : State :=
  let rows := ((s.alm.copy0.filter (fun e => almKey almHbm 0 ≤ e.1 && (s.almVal e.1 0) == 1)).map
    (fun e => e.1 - almKey almHbm 0)).filter (fun n => (unitChs (.stack (n / 2 ^ 40 / 64))).all (fun c => (s.chan c).on))
  let mended := fun (a : Nat) => rows.any (fun n => hbmBase (n / 2 ^ 40) ≤ a && a < hbmBase (n / 2 ^ 40) + sliceSize
    && hbmRow (n / 2 ^ 40) a == n)
  { s with hbm := { s.hbm with repaired := rows }
           weak := s.weak.filter (fun a => !mended a), poison := s.poison.filter (fun a => !mended a) }

/-- LINK_TRAIN (R424, step 7; R425). -/
def execLinkTrain (s : State) : Out :=
  .next (if !s.boot.mergedOk || s.boot.trained then s
    else
      let s0 := s
      let s := (List.range 384).foldl (fun s r => s.trainLinks r false) s
      let s := s.repairRows
      let s := (List.range 32).foldl (fun s b => if s.blockFed b then s.openBlock b else s) s
      let s := { s with fab := { s.fab with isolated := false } }
      let s := (List.range 384).foldl (fun s r => if dieX r == 11 || dieX r == 12 then s.trainLinks r true else s) s
      let s := { s with boot := { s.boot with trained := true } }
      ((s.setStage 0 6).setStage 1 6).capSync s0)

/-! Step 8, R426. -/

/-- Slices in service. -/
def State.sliceIn (s : State) (k : Nat) : Bool :=
  s.part.hasStack (k / 64) && (unitChs (.stack (k / 64))).all (fun c => (s.chan c).on)
    && !s.hbm.downNow.contains k && s.baseRuns (baseOf (sliceRouter k))

/-- What step 5 of R451 leaves once a panel restart has brought the new image up, or has not (R452). -/
def State.fuse (s : State) (u : Update) (i : FwImage) : State :=
  let n := if u.commit then max s.fuseCount i.svn else s.fuseCount
  let low := (List.range i.edSlot).map (fun k => ((1, k) : Nat × Nat)) ++ (List.range i.mlSlot).map (fun k => ((2, k) : Nat × Nat))
  let done := fun (c : Ctl) => { c with
    fuses := n
    activeB := match c.pending with | some b => b | none => c.activeB
    pending := none }
  { s with boot := { s.boot with
      c0 := done s.boot.c0, c1 := done s.boot.c1, update := none
      revoked := if u.revoke then (s.boot.revoked ++ low).eraseDups else s.boot.revoked } }

/-- RECORD_GEN advances whatever changed (R451). -/
def State.genAdvance (s : State) : State :=
  ({ s with panel := { s.panel with recordGen := s.panel.recordGen + 1#32 } } : State).capNotices

/-- The update ends. -/
def State.updateEnd (s : State) : State :=
  match s.boot.update with
  | none => s
  | some u =>
    let onNew := fun (c : Ctl) => !c.running || c.pending == some c.runB
    match u.img with
    | some i =>
      if onNew s.boot.c0 && onNew s.boot.c1 then ((s.fuse u i).genAdvance).complete u.handle stOk
      else ({ s with boot := { s.boot with update := none } } : State).complete u.handle stContained
    | none => s

/-- READY is set; the Meridian's test-chain segment is in bypass from then on (R15). -/
def State.becomeReady (s : State) : State :=
  let now := fun (c : Ctl) (m : Nat) => { c with stage := 7, readyMs := s.aonCount (388 + m) / 25000 % 2 ^ 32 }
  { s with boot := { s.boot with ready := true, chainMeridian := false, c0 := now s.boot.c0 0, c1 := now s.boot.c1 1 } }

/-- Idle floors of the supply regions, measured at start-up, in µJ per ms (R326). -/
def State.floors (s : State) : Tab Nat :=
  (List.range 32).map (fun b =>
    (b, ((sharedChs b).map (fun c => entryMa (s.chan c).entry * (s.chan c).volts)).sum / 1000))

/-- The HBM map is built: the slices that are out, no line owned, and the blocks that are online (R426). -/
def State.buildHbm (s : State) : State :=
  let down := (List.range 4096).filter (fun k => s.part.hasStack (k / 64) && !s.sliceIn k)
  { s with
    hbm := { s.hbm with downAtBuild := down, downNow := down, built := true, owner := [] }
    panel := { s.panel with blockOnline := BitVec.ofNat 32 (popMask 32 (fun b => s.blockFed b)), hbmDegraded := false } }

/-- Panel memory is cleared (R426); host memory is not the panel's. -/
def State.clearMem (s : State) : State :=
  { s with mem := s.mem.filter (fun c => hostBase 0 ≤ c.1), poison := [], weak := [] }

/-- The floor of every block is taken (R424, step 8). -/
def State.takeFloors (s : State) : State := { s with power := { s.power with floor := s.floors } }

/-- WORK_MAP (R424, step 8; R426). -/
def execWorkMap (s : State) : Out :=
  .next (if !s.boot.trained || s.boot.ready || s.boot.c0.stage != 6 || s.boot.debugRestart then s
    else
      let s0 := s
      let s := s.buildHbm
      let s := (List.range 32).foldl (fun s b => if s.blockOn b then s.chooseReserve b else s) s
      let s := (List.range 384).foldl (fun s d => s.buildSlots d) s
      let mapped := ((s.alm.copy0.range (almKey almMap 0) (almKey (almMap + 1) 0)).map
        (fun (e : Nat × AlmEntry) => (e.1 - almKey almMap 0) / 2048)).eraseDups
      let s := mapped.foldl (fun s g => s.loadMaps g) s
      let s := s.clearMem
      let s := (List.range 384).foldl (fun s r => s.setHole r (b2n (!s.baseRuns (baseOf r)))) s
      let s := s.routeFresh
      let s := s.injStop 0
      let s := s.recordPartners
      let s := s.takeFloors
      let s := s.becomeReady.capSync s0
      match s.boot.update with
      | some u => if u.step == 5 then s.updateEnd else s
      | none => s)

/-- A running controller masters the net and half of the other (R393, R430). -/
def State.alone (s : State) (m : Nat) (sole : Bool) : State := s.setCtl m { s.boot.ctl m with sole := sole }

/-- SOLE_TAKEOVER (R430): no heartbeat from the other for 10 s after its own step 3; the other half's chain is reached over
the Meridian's segment. -/
def execSoleTakeover (m : Nat) (s : State) : Out :=
  onUnit (ctlOk m) (fun s =>
    if !(s.boot.ctl m).running || (s.boot.ctl m).heard || (s.boot.ctl m).sole || s.boot.ready then s
    else
      let s := (ctlLinks (1 - m)).foldl (fun s n => s.claim m n) s
      let o := s.boot.ctl (1 - m)
      let s := { s with boot := { s.boot with chainMeridian := true } }
      (s.setCtl (1 - m) { o with stage := max o.stage 2 }).alone m true) s

/-- The half of controller m, with its links and its ports, passes to it from the other. -/
def State.handBack (s : State) (m : Nat) : State :=
  let s := (ctlLinks m).foldl (fun s n => (s.release n).claim m n) s
  let s := { s with boot := { s.boot with chainMeridian := s.boot.chainMeridian && s.boot.tapMaster } }
  s.alone (1 - m) false

/-- CONTROLLER_RETURN (R430): the returning controller takes its half from the state copied to it, and both Almanac copies
are those of the other (R435). -/
def execControllerReturn (m : Nat) (s : State) : Out :=
  onUnit (ctlOk m) (fun s =>
    let o := s.boot.ctl (1 - m)
    if !(s.boot.ctl m).running || (s.boot.ctl m).restarting || !o.sole then s
    else
      let s := s.almJoin.handBack m
      let c := s.boot.ctl m
      let s := s.setCtl m { c with readyMs := o.readyMs, heard := true }
      s.setCtl (1 - m) { s.boot.ctl (1 - m) with heard := true }) s

/-- CTRL_HEARTBEAT (R392): controller m is heard by the other. -/
def execCtrlHeartbeat (m : Nat) (s : State) : Out :=
  onUnit (ctlOk m) (fun s =>
    if (s.boot.ctl m).running then s.setCtl (1 - m) { s.boot.ctl (1 - m) with heard := true } else s) s

/-- CONTROLLER_TAKEOVER (R393, R394): 10 ms of silence; the survivor claims the links of the other half. -/
def execControllerTakeover (m : Nat) (s : State) : Out :=
  onUnit (ctlOk m) (fun s =>
    if !(s.boot.ctl m).running || (s.boot.ctl m).sole || (s.boot.ctl (1 - m)).restarting then s
    else if !(ctlLinks (1 - m)).all (fun n => s.claimOk n m) then s.uncontained srcMgmtSplit locNone
    else
      let s := (ctlLinks (1 - m)).foldl (fun s n => s.claim m n) s
      let o := s.boot.ctl (1 - m)
      let s := s.setCtl (1 - m) { o with running := false, heard := false, version := 0#32, svn := 0, digest := 0#384 }
      let s := (s.setCtl m { s.boot.ctl m with heard := false }).alone m true
      let s := s.logCorrected srcTakeover 127 locNone 0#64 []
      match s.err.handling with
      | some h => { s with err := { s.err with handling := some { h with phase := 0 } } }
      | none => s) s

end Sys2Proof.Machine
end

