-- ==== Sys2Proof/Machine/Trust.lean ====
section
/-! DEFINITION. Controllers that restart (R436), firmware updates (R451, R452), attestation (R443–R445), the external test
port (R433), the isolation of a half (R15) and the restoring of a dark block (R357). -/

namespace Sys2Proof.Machine

/-! Planned restarts, R436, R448. -/

/-- Step 1: controller m releases its links and the other takes over its half and its ports. -/
def State.ctlRestart (s : State) (m : Nat) : State :=
  let c := s.boot.ctl m
  if !c.running || c.restarting then s
  else
    let s := (ctlLinks m).foldl (fun s n => s.release n) s
    let s := s.setCtl m { c with running := false, restarting := true, version := 0#32, svn := 0, digest := 0#384, sole := false }
    if (s.boot.ctl (1 - m)).running then ((ctlLinks m).foldl (fun s n => s.claim (1 - m) n) s).alone (1 - m) true else s

/-- The controller that serves the administrator's port for the update, and the other (R452). -/
def State.updateFirst (s : State) (u : Update) : Nat :=
  match s.handle u.handle with
  | some h => 1 - (s.server h.port).getD (h.port % 2)
  | none => 1

/-- A debug latch or an update asks for the restart of controller m now. -/
def State.restartDue (s : State) (m : Nat) : Bool :=
  !(s.boot.ctl (1 - m)).restarting && !s.errBusy
    && ((s.boot.debugRestart && (s.boot.ctl m).stage == 7)
      || (match s.boot.update with
        | some u => (u.step == 3 && m == s.updateFirst u) || (u.step == 4 && m != s.updateFirst u)
        | none => false))

/-- Step 3: the restarted controller takes back its links, its half and its ports. Once both have restarted for a debug
latch READY is set again; an update goes on to the other controller, or ends. -/
def State.ctlDone (s : State) (m : Nat) : State :=
  let c := s.boot.ctl m
  if !c.restarting || !c.running then s
  else
    let s0 := s
    let s := (s.setCtl m { c with restarting := false, heard := true }).handBack m
    if s.boot.debugRestart then
      let s := s.setStage m 6
      let o := s.boot.ctl (1 - m)
      if !o.running || o.stage == 6 then
        ({ s with boot := { s.boot with debugRestart := false } } : State).becomeReady.capSync s0
      else s
    else
      match s.boot.update with
      | none => s
      | some u =>
        let c := s.boot.ctl m
        if u.step == 3 && c.pending == some c.runB && (s.boot.ctl (1 - m)).running then
          { s with boot := { s.boot with update := some { u with step := 4 } } }
        else if u.step == 3 || u.step == 4 then s.updateEnd
        else s

/-- CONTROLLER_RESTART. -/
def execControllerRestart (m : Nat) (s : State) : Out :=
  onUnit (ctlOk m) (fun s => if s.restartDue m then s.ctlRestart m else s) s

/-- CONTROLLER_RESTART_DONE. -/
def execControllerRestartDone (m : Nat) (s : State) : Out := onUnit (ctlOk m) (fun s => s.ctlDone m) s

/-! Firmware update, R451, R452. -/

/-- The image that an FW_UPDATE names, in the memory of the host that issued it (R451, step 1). -/
def State.updateImage (s : State) (u : Update) : FwImage :=
  match s.handle u.handle with
  | some h => let n := bits h.pkt.p1 31 0
              imageOf (toBytes (s.hostRead h.port h.pkt.p0.toNat n) n)
  | none => imageOf []

/-- FW_IMAGE_STAGED of the update whose command has handle `h`: the image has been read and checked, and stands in the
non-active slot of both stores. -/
def execFwImageStaged (h : W32) (s : State) : Out :=
  .next (match s.boot.update with
    | some u =>
      let img := s.updateImage u
      if u.handle != h || u.step != 1 || !s.fwRuns then s
      else if !s.imageOk img then
        ({ s with boot := { s.boot with update := none } } : State).complete u.handle stContained
      else
        let put := fun (c : Ctl) => { c.setSlot (!c.activeB) ⟨some img, false⟩ with pending := some (!c.activeB) }
        { s with boot := { s.boot with c0 := put s.boot.c0, c1 := put s.boot.c1
                                       update := some { u with img := some img, step := 3 } } }
    | none => s)

/-- Steps 1 to 3 of R436 for one controller. -/
def State.ctlCycle (s : State) (m : Nat) : State := ((s.ctlRestart m).romBoot m).ctlDone m

/-- FW_ACTIVATE: one controller after the other, by a panel restart, or not at all (R452). -/
def execFwActivate (s : State) : Out :=
  .next (match s.boot.update with
    | some u =>
      match u.img with
      | some i =>
        if u.step != 3 || s.errBusy then s
        else if !s.boot.held390 && i.peerMin.toNat ≤ s.fwVersion.toNat && s.boot.c0.running && s.boot.c1.running then
          let m := s.updateFirst u
          let s := s.ctlCycle m
          if s.boot.update.isSome then s.ctlCycle (1 - m) else s
        else if s.boot.held390 || (u.restart && partIds.all (fun q => !(s.prt q).live)) then
          ({ s with boot := { s.boot with update := some { u with step := 5 } } } : State).panelReset
        else ({ s with boot := { s.boot with update := none } } : State).complete u.handle stContained
      | none => s
    | none => s)

/-! Attestation over SPDM, R443–R445. A message stands in the state without its version byte (log entry 32). -/

def nats (l : List Byte) : List Nat := l.map (fun b => b.toNat)
def leNats (v n : Nat) : List Nat := nats (toBytes v n)

/-- What a controller's Alias keys were derived from (R441). -/
def Ctl.derived (c : Ctl) : Nat := ((c.digest.toNat * 2 ^ 8 + c.svn) * 2 ^ 8 + c.aliasFuses) * 2 ^ 8 + c.aliasDebug

/-- The certificate chain of a slot (R442): what was issued at manufacture, then the Alias certificate. -/
def Ctl.chain (c : Ctl) (slot : Nat) : List Byte := Config.document 3 slot ++ Config.document (16 + c.derived) slot

/-- A signature of n bytes with the Alias key of an algorithm (0 Ed25519, 1 ML-DSA-65) over a digest (log entry 30). -/
def Ctl.sign (c : Ctl) (alg n : Nat) (d : BitVec 384) : List Nat :=
  let l := Config.document (2 ^ 600 + c.derived * 2 ^ 384 + d.toNat) alg
  (List.range n).map (fun i => (l.getD i 0#8).toNat)

def hashNats (l : List Nat) : BitVec 384 := sha384 (l.map (BitVec.ofNat 8))

def spdmError (code data : Nat) : List Nat := [0x7F, code, data]
def spdmInvalid : Nat := 0x01
def spdmUnexpected : Nat := 0x04
def spdmNotSupported : Nat := 0x07

/-- A request that the controller serving port p answers (R428, R443): `need` is what must have been negotiated before. -/
def spdmRow (p : Nat) (req : List Nat) (need : Spdm → Bool) (f : Ctl → State → Spdm → Spdm × List Nat × Nat) (s : State) : Out :=
  onUnit (s.part.hasPort p) (fun s =>
    match s.server p with
    | none => s
    | some m =>
      if !(s.port p).answers then s
      else
        let x := s.spdm.getD p Spdm.reset
        if !need x then { s with spdm := s.spdm.set p { x with response := spdmError spdmUnexpected 0 } }
        else
          let r := f (s.boot.ctl m) s x
          { s with free := s.free + r.2.2
                   spdm := s.spdm.set p { r.1 with transcript := r.1.transcript ++ req ++ r.2.1, response := r.2.1 } }) s

/-- GET_VERSION: versions 1.2 and 1.3; the negotiation begins anew. -/
def execGetVersion (p : Nat) (s : State) : Out :=
  spdmRow p [0x84, 0, 0] (fun _ => true) (fun _ _ _ =>
    ({ Spdm.reset with version := true }, [0x04, 0, 0, 0, 2, 0x00, 0x12, 0x00, 0x13], 0)) s

/-- GET_CAPABILITIES: certificates, challenge and signed measurements. -/
def execGetCapabilities (p : Nat) (s : State) : Out :=
  spdmRow p [0xE1, 0, 0] (fun x => x.version) (fun _ _ x =>
    ({ x with caps := true }, [0x61, 0, 0, 0, 0, 0] ++ leNats 0x16 4, 0)) s

/-- NEGOTIATE_ALGORITHMS: DMTF measurements, SHA-384, EdDSA Ed25519. -/
def execNegotiateAlgorithms (p : Nat) (s : State) : Out :=
  spdmRow p [0xE3, 0, 0] (fun x => x.caps) (fun _ _ x =>
    ({ x with algs := true }, [0x63, 0, 0, 1, 0] ++ leNats 4 4 ++ leNats 0x200 4 ++ leNats 2 4, 0)) s

/-- GET_DIGESTS: slots 0 and 1. -/
def execGetDigests (p : Nat) (s : State) : Out :=
  spdmRow p [0x81, 0, 0] (fun x => x.algs) (fun c _ x =>
    (x, [0x01, 0, 3] ++ nats (digestBytes (sha384 (c.chain 0))) ++ nats (digestBytes (sha384 (c.chain 1))), 0)) s

/-- GET_CERTIFICATE: a portion of a slot's chain (R442). -/
def execGetCertificate (p slot off len : Nat) (s : State) : Out :=
  spdmRow p ([0x82, slot, 0] ++ leNats off 2 ++ leNats len 2) (fun x => x.algs) (fun c _ x =>
    let l := c.chain slot
    if 1 < slot || l.length < off then (x, spdmError spdmInvalid 0, 0)
    else
      let part := sliceBytes l off (min len 65535)
      (x, [0x02, slot, 0] ++ leNats part.length 2 ++ leNats (l.length - off - part.length) 2 ++ nats part, 0)) s

/-- Both Alias signatures of R444 at the end of a response. -/
def Ctl.signed (c : Ctl) (transcript body : List Nat) : List Nat :=
  let head := body ++ [0x01]
  let ml := c.sign 1 3309 (hashNats (transcript ++ head ++ List.replicate 3309 0))
  let both := head ++ ml
  both ++ c.sign 0 64 (hashNats (transcript ++ both))

/-- 32 bytes of a responder's nonce. -/
def State.spdmNonce (s : State) : List Nat := (List.range 4).flatMap (fun i => leNats (Config.freeW64 (s.free + i)).toNat 8)

/-- CHALLENGE. -/
def execChallenge (p : Nat) (nonce : W256) (s : State) : Out :=
  let req := [0x83, 0, 0] ++ leNats nonce.toNat 32
  spdmRow p req (fun x => x.algs) (fun c s x =>
    (x, c.signed (x.transcript ++ req) ([0x03, 0, 1] ++ nats (digestBytes (sha384 (c.chain 0))) ++ s.spdmNonce), 4)) s

/-- The content of a measurement (R445), with its type in the DMTF format. -/
def State.measure (s : State) (c o : Ctl) (i : Nat) : List Nat :=
  let v : Nat × List Nat :=
    if i == 1 then (0x00, nats (digestBytes Config.romDigest))
    else if i == 2 then (0x01, nats (digestBytes c.digest))
    else if i == 3 then (0x87, [c.svn, c.fuses])
    else if i == 4 then (0x85, [b2n s.boot.unlocked, s.boot.scope])
    else (0x01, if o.running then nats (digestBytes o.digest) else List.replicate 48 0)
  [i, 1] ++ leNats (v.2.length + 3) 2 ++ [v.1] ++ leNats v.2.length 2 ++ v.2

/-- GET_MEASUREMENTS: their number with index 0, one of them, or with 255 all. -/
def execGetMeasurements (p index : Nat) (nonce : W256) (s : State) : Out :=
  let req := [0xE0, 1, index] ++ leNats nonce.toNat 32
  spdmRow p req (fun x => x.algs) (fun c s x =>
    let o := s.boot.ctl (1 - (s.server p).getD 0)
    let l := if index == 255 then [1, 2, 3, 4, 5] else if 1 ≤ index && index ≤ 5 then [index] else []
    if 5 < index && index != 255 then (x, spdmError spdmInvalid 0, 0)
    else
      let recs := l.flatMap (fun i => s.measure c o i)
      (x, c.signed (x.transcript ++ req) ([0x60, if index == 0 then 5 else 0, 0, l.length] ++ leNats recs.length 3 ++ recs
        ++ s.spdmNonce), 4)) s

/-- SPDM_UNSUPPORTED: UnsupportedRequest. -/
def execSpdmUnsupported (p code : Nat) (s : State) : Out :=
  spdmRow p [code, 0, 0] (fun _ => true) (fun _ _ x => (x, spdmError spdmNotSupported code, 0)) s

/-! The external test port, R433, R449. -/

/-- The TAP scope of a debug unlock is open. -/
def Boot.tapOpen (b : Boot) : Bool := b.unlocked && b.scope % 2 == 1

/-- IDCODE (R433). -/
def State.idcode (s : State) : W32 :=
  BitVec.ofNat 32 (s.part.stepping % 16 * 2 ^ 28 + 0x5A10 * 2 ^ 12 + ofBytes (Config.document 4 0) % 2 ^ 11 * 2 + 1)

/-- TAP_ACCESS: what TDO shows. An instruction that the port does not offer selects BYPASS; under the TAP scope the port
masters both halves' chains, whose instruments' bits are open. -/
def execTapAccess (op : TapOp) (s : State) : Out :=
  .next (if !s.boot.c0.powered then s
    else match op with
    | .bypass tdi => { s with boot := { s.boot with tdo := BitVec.ofNat 32 (b2n tdi) } }
    | .idcode => { s with boot := { s.boot with tdo := s.idcode } }
    | .other _ tdi =>
      if s.boot.tapOpen then
        { s with free := s.free + 1
                 boot := { s.boot with tapMaster := true, chainMeridian := !s.fab.isolated, tdo := (Config.freeW64 s.free).setWidth 32 } }
      else { s with boot := { s.boot with tdo := BitVec.ofNat 32 (b2n tdi) } })

/-! The Meridian, R15. -/

/-- Ends of the 16 mesh crossings on the West side. -/
def meridian : List (Nat × Nat) := ((List.range 384).filter (fun r => dieX r == 11)).flatMap (fun r =>
  ((List.range 4).filter (fun p => crosses r p)).map (fun p => (r, p)))

/-- A half that no controller of its own runs is isolated (R15, R31): its dies are DARK, and as before once it is joined again
(log entry 44). -/
def State.halfDark (s : State) (h : Nat) (isolate : Bool) : State :=
  ((List.range 384).filter (fun d => b2n (eastDie d) == h && !s.power.darkBlocks.contains (blockOf d))).foldl (fun s d =>
    if isolate then (if s.dieState d == dieDark then s else s.setDie d dieDark)
    else if s.dieState d == dieDark then s.setDie d (s.almVal (almKey almBefore d) dieCounted) else s) s

/-- HALF_ISOLATION: the crossings and the test-chain segment are opened, or the crossings closed again. -/
def execHalfIsolation (isolate : Bool) (s : State) : Out :=
  .next (if !s.fwRuns || s.fab.isolated == isolate || (!isolate && !s.boot.trained) then s
    else
      let s0 := s
      let s := { s with fab := { s.fab with isolated := isolate }
                        boot := { s.boot with chainMeridian := s.boot.chainMeridian && !isolate } }
      let s := [0, 1].foldl (fun s h => if (s.boot.ctl h).running then s else s.halfDark h isolate) s
      let s := meridian.foldl (fun s (e : Nat × Nat) =>
        if isolate then s.linkFall e.1 e.2
        else match nbr e.1 e.2 with
          | some q => if s.hole e.1 || s.hole q then s else s.linkRise e.1 e.2
          | none => s) s
      s.routeUpdate.capSync s0)

/-! Dark blocks, R357. -/

/-- BLOCK_RESTORE: the block's input stage is restored, and the block is brought up as at start-up; its slices stay out of
the interleave until the next start-up (R220). -/
def execBlockRestore (b : Nat) (s : State) : Out :=
  onUnit (blockOk b) (fun s =>
    if !s.power.darkBlocks.contains b || !s.fwRuns || !s.boot.ready then s
    else
      let s0 := s
      let s := { s with power := { s.power with darkBlocks := setDel s.power.darkBlocks b } }
      let s := s.setDome (FREQ_REGION b) 0x20
      let s := (List.range 50).foldl (fun s k =>
        let c := 50 * b + k
        if s.chFitted c then
          match railOf c with
          | .row d h => s.chOn c (rowVolts d h (s.regionCode b))
          | _ => s.chOn c 0
        else s) s
      let s := (blockDies b).foldl (fun s d => s.dieReset d) s
      let s := (blockDies b).foldl (fun s d =>
        if s.dieState d != dieDark then s
        else
          let was := s.almVal (almKey almBefore d) dieCounted
          (s.setDie d (if was == dieReserve then dieCounted else was)).buildSlots d) s
      let s := { s with panel := { s.panel with blockOnline := s.panel.blockOnline ||| (1#32 <<< b) } }
      let s := (List.range 3).foldl (fun s i => (s.setAlm (almKey almBase (3 * b + i)) 0).baseUp (3 * b + i)) s
      let s := if s.part.hasTransit then (s.setAlm (almKey almPhot b) 0).openBlock b else s
      ((s.chooseReserve b).routeUpdate).capSync s0) s

end Sys2Proof.Machine
end

