-- ==== Sys2Proof/Machine/Regs.lean ====
section
/-! DEFINITION. A write of any register by firmware, or of BAR0 by a host (R9–R13), and what a read of any register shows:
the word in effect with the fields that other state of the panel gives. -/

namespace Sys2Proof.Machine

/-! Writes. -/

/-- A core register written by firmware; those that act: SEQ_CTRL, INJECT, SURVEY_CFG.RELEASE, SP_MAP, SP_MIGRATE, SP_CTRL
(R121, R91, R211). The clock of the core's row restarts (R340). -/
def State.writeCore (s : State) (g off : Nat) (v : W64) : State :=
  let s := s.siteWake g
  match off with
  | 0x408 =>
    let s := if bit v 0 then s.seqStart g else s
    let s := if bit v 1 then s.updCore g Core.resume else s
    let s := if bit v 2 then s.updCore g Core.stop else s
    if bit v 3 then s.seqRstart g else s
  | 0x150 =>
    if !s.injectOpen then s
    else s.setMac g { s.mac g with injRes := (s.mac g).injRes || bit v 1, injFind := (s.mac g).injFind || bit v 0 }
  | 0x7D0 =>
    let s := (s.coreWrite g off v true).1
    if bit v 2 then s.surveyRelease g else s
  | 0x7E8 =>
    if bits v 63 62 == 2 then s.mapWrite g (bits v 61 57) (bits v 56 51) (bits v 50 49) (bits v 48 39)
    else s.mapSelect g (bits v 61 57) (bits v 56 51)
  | 0x7F0 =>
    if bit v 0 then s.migrateGo g (bits v 63 59) (bits v 58 53) (bits v 52 43) (bit v 4)
    else (s.coreWrite g off v true).1
  | 0x7F8 =>
    let s := if bit v 1 then s.ceClear g else s
    if bit v 0 then s.zeroise g else s
  | _ => (s.coreWrite g off v true).1

/-- WIN_SEL: each site's pair is Locked by that core's idleness (R216). -/
def State.writeWinSel (s : State) (d : Nat) (v : W64) : State :=
  (List.range 16).foldl (fun s i =>
    let w := s.reg (spinePage d + 0xF000) 0
    let n := bits v (2 * i + 1) (2 * i)
    if bits w (2 * i + 1) (2 * i) == n then s
    else if s.coreIdle (16 * d + i) then s.setReg (spinePage d + 0xF000) (setBits w (2 * i + 1) (2 * i) n)
    else s.lockedDrop (16 * d + i) 0x400) s

/-- A register of check unit u at its offset in the unit (R468, R471): contexts 0–2 of a management die's unit 0 belong to the
frame checker. -/
def State.writeChk (s : State) (u page base off : Nat) (v : W64) : State :=
  if off == 0x28 then
    let s := if bit v 0 then s.chkGo u else s
    if bit v 1 then s.chkAbort u else s
  else if 384 ≤ u && u % 2 == 0 && 0x100 ≤ off && off < 0x118 then s
  else match findReg chkRegs off with
  | none => s
  | some d =>
    let r := s.writeReg page (d.shift base) v true (!s.chkBusy u)
    if r.2 then r.1.setFld (chkPage u) CHK_STATUS_CFG_LOCKED_WR 1 else r.1

/-- Spine registers (R216, R277, R358, R378); a new preference switches the reference (R336). -/
def State.writeSpine (s : State) (d off : Nat) (v : W64) : State :=
  if off == 0xF000 then s.writeWinSel d v
  else if 0xF500 ≤ off && off < 0xF700 then s.writeChk d (spinePage d) 0xF500 (off - 0xF500) v
  else match findReg (spineRegs ++ spineTables) off with
  | none => s
  | some r =>
    let s := (s.writeReg (spinePage d) r v true true).1
    let s := if off == 0xF308 then s.preferRef d else s
    if off == 0xF308 && bit v 1 && s.therm.hold < 2 then
      (List.range 2).foldl (fun s h => if (s.chan (rowCh d h)).on then s.setFld (spinePage d) (rowRun (h == 1)) 1 else s) s
    else s

/-- A router is idle when its buffers and its injection queue are empty (R275). -/
def State.routerIdle (s : State) (r : Nat) : Bool :=
  !s.fab.packets.any (fun k => match k.loc with
    | .injq a | .router a _ => a == r
    | .link a _ _ _ => a == r
    | _ => false)

/-- A link is idle when nothing is queued for it or crosses it, in either direction (R275). -/
def State.linkIdle (s : State) (r p : Nat) : Bool :=
  let quiet := fun (a b : Nat) => s.fab.packets.all (fun k => !k.onLink a b && !(k.inRouter a && (s.wants a k.h).contains b))
  quiet r p && (match nbr r p with
    | some q => quiet q (oppPort p)
    | none => true)

/-- Router registers (R275): a dropped Locked write sets the router's sticky bit. -/
def State.writeRouter (s : State) (r : Nat) (d : RegDef) (off : Nat) (v : W64) : State :=
  let link := 0x60 ≤ off && off < 0x80
  let p := (off - 0x60) / 8
  let idle := if link then s.linkIdle r p
    else if 0x1000 ≤ off && off < 0x1800 then (off - 0x1000) / 0x400 != s.bank r || s.routerIdle r
    else s.routerIdle r
  let w := s.writeReg (routerPage r) d v true idle
  let s := if w.2 then w.1.setFld (routerPage r) RT_STATUS_CFG_LOCKED_WR 1 else w.1
  if !link then s
  else if (s.link r p).up then s.linkRefresh r p
  else match nbr r p with
    | some q => if s.hole r || s.hole q || (crosses r p && s.fab.isolated) then s else s.linkRise r p
    | none => s

/-- Base-die registers: four routers, and the read-only traffic counters. -/
def State.writeBase (s : State) (u off : Nat) (v : W64) : State :=
  if off < 0x80000 then
    match findReg (routerRegs ++ routerTables) (off % 0x20000) with
    | some d => s.writeRouter (dieOfBase u (off / 0x20000)) d (off % 0x20000) v
    | none => s
  else s

/-- Photonic engine registers (R276): DISABLE is Locked by the engine's queues. -/
def State.writePhot (s : State) (b off : Nat) (v : W64) : State :=
  match findReg photonicRegs off with
  | none => s
  | some d =>
    let idle := !s.fab.packets.any (fun k => match k.loc with
      | .engine e _ => e == b
      | .wave e _ _ => e == b
      | _ => false)
    let was := s.fld (photPage b) PH_CFG_DISABLE
    let w := s.writeReg (photPage b) d v true idle
    let s := if w.2 then w.1.setFld (photPage b) PH_STATUS_CFG_LOCKED_WR 1 else w.1
    let now := s.fld (photPage b) PH_CFG_DISABLE
    if was == now then s
    else if now == 1 then (s.closeBlock b).capSync s
    else if s.boot.trained then (s.openBlock b).capSync s
    else s

/-- Dome registers of M0 and M1. -/
def State.writeDome (s : State) (i off : Nat) (v : W64) : State :=
  if i != 4 && i != 5 then s
  else if 0xA000 ≤ off && off < 0xA800 then
    s.writeChk (384 + 2 * (i - 4) + (off - 0xA000) / 0x400) (domePage i) (0xA000 + (off - 0xA000) / 0x400 * 0x400)
      ((off - 0xA000) % 0x400) v
  else match findReg (domeRegs ++ domeTables) off with
  | some d => (s.writeReg (domePage i) d v true true).1
  | none => s

/-- The unit of a register address is on the part. -/
def State.regFitted (s : State) (a : RegAddr) : Bool :=
  RegAddr.ok a && (match a with
    | .slicectl n _ => s.part.hasStack n
    | .photonic _ _ => s.part.hasTransit
    | .dome i _ => s.part.hasDome i
    | .bar p _ _ => s.part.hasPort p
    | _ => true)

/-- REG_WRITE (R9–R13). -/
def execRegWrite (a : RegAddr) (v : W64) (s : State) : Out :=
  onUnit (s.regFitted a) (fun s =>
    match a with
    | .core g off => s.writeCore g off v
    | .spine d off => s.writeSpine d off v
    | .base u off => s.writeBase u off v
    | .slicectl _ _ => s
    | .photonic b off => s.writePhot b off v
    | .dome i off => s.writeDome i off v
    | .cache d off =>
      if off != 0 then s
      else if bit v 1 then s.invStart d (fun _ => true)
      else if bit v 0 then s.invStart d (fun q => q == 127)
      else s
    | .bar p f off => s.barWrite p f off v) s

/-! Reads. -/

/-- Contexts 0–2 of a management die's unit 0 (R468): the frames received on FA and FB, and those sent. -/
def State.frameCtx (s : State) (i : Nat) : W64 :=
  if i == 2 then BitVec.ofNat 64 ((s.fac.txCount + 1#8).toNat * 2 ^ 48 + s.fac.txCount.toNat * 2 ^ 32 + 3)
  else
    let x := s.facCh i
    let n := fun (F : Nat → Fld) => min 255 (s.fld (domePage 4) (F i))
    BitVec.ofNat 64 ((x.last + 1#8).toNat * 2 ^ 48 + x.last.toNat * 2 ^ 32 + n FAC_CH_GAPS * 2 ^ 24
      + n FAC_CH_REPEATS * 2 ^ 16 + n FAC_CH_REJECTS * 2 ^ 8 + x.run * 2 ^ 4 + 3)

/-- Words that the spine gives at reading: the always-on count and the energy counters (R327, R342, R358). -/
def State.spineView (s : State) (d off : Nat) : W64 :=
  if off == 0xF310 then BitVec.ofNat 64 (s.aonCount d)
  else if 0xF200 ≤ off && off < 0xF218 && off % 8 == 0 then
    let i := (off - 0xF200) / 8
    BitVec.ofNat 64 (s.power.energy.getD (if i == 2 then spineCh d else rowCh d i) 0 / 10000)
  else match RegAddr.find (.spine d off) with
    | some r => s.reg (spinePage d + off) r.reset
    | none => 0#64

/-- A link is long-reach when it crosses a block boundary (R255). -/
def longReach (r p : Nat) : Bool := match nbr r p with | some q => blockOf r != blockOf q | none => false

/-- Words that a router gives at reading: its occupancies, and which links are long-reach (R275). -/
def State.baseView (s : State) (u off : Nat) : W64 :=
  match RegAddr.find (.base u off) with
  | none => 0#64
  | some d =>
    let w := s.reg (basePage u + off) d.reset
    let r := dieOfBase u (off / 0x20000 % 4)
    let o := off % 0x20000
    if 0x80000 ≤ off then w
    else if o == 0 then
      let esc := (s.fab.packets.filter (fun k => k.h.vc == vcESC && k.inRouter r)).length
      setBits (setBits w 47 40 (min 255 esc)) 39 32 (s.injCount r)
    else if 0x40 ≤ o && o < 0x60 then setBits w 40 40 (b2n (longReach r ((o - 0x40) / 8)))
    else w

/-- Words that a photonic engine gives at reading: OCC counts the packets it holds for the pair (R270, R276). -/
def State.photView (s : State) (b off : Nat) : W64 :=
  match findReg photonicRegs off with
  | none => 0#64
  | some d =>
    let w := s.reg (photPage b + off) d.reset
    if 0x100 ≤ off && off < 0x200 then setBits w 7 0 (min 255 (s.engineQ b ((off - 0x100) / 8))) else w

/-- Four packed states and scores (R419, R420). -/
def scoreWord (i : Nat) (state score : Nat → Nat) : W64 :=
  BitVec.ofNat 64 (((List.range 4).map (fun j => (state (4 * i + j) * 2 ^ 12 + score (4 * i + j)) * 2 ^ (16 * j))).sum)

/-- BOOT_STATUS of controller m (R453). -/
def State.bootStatus (s : State) (m : Nat) : W64 :=
  let c := s.boot.ctl m
  let stage := if s.boot.held390 then 10 else if c.restarting then 9 else if c.recovery then 8 else c.stage
  BitVec.ofNat 64 (stage * 2 ^ 56 + c.fuses * 2 ^ 48 + c.svn * 2 ^ 40 + b2n c.runB * 2 ^ 38 + b2n c.pending.isSome * 2 ^ 37
    + b2n s.boot.unlocked * 2 ^ 36 + s.boot.scope * 2 ^ 32 + c.readyMs)

/-- Words that M0 and M1 give at reading (R419, R420, R453, R468, R471, R358). -/
def State.domeView (s : State) (i off : Nat) : W64 :=
  let m := i - 4
  match RegAddr.find (.dome i off) with
  | none => 0#64
  | some d =>
    let w := s.reg (domePage i + off) d.reset
    if 0x5000 ≤ off && off < 0x5040 then
      let x := s.pcl ((off - 0x5000) / 8)
      setBits (setBits w 1 1 (b2n (x.master == some m))) 0 0 (b2n x.up)
    else if off == 0x7000 then
      let w := setBits w 31 23 (min 256 s.err.queue.length)
      let w := setBits w 22 20 (match s.err.handling with | some h => h.domain | none => 7)
      setBits (setBits w 19 19 (b2n s.err.storm)) 18 18 (b2n (s.boot.ctl m).sole)
    else if off == 0x7010 then
      let n := ((List.range 384).filter (fun d => s.dieState d == dieProbation)).length
      let hour := (s.err.expels.filter (fun (e : Nat × Nat) => s.ms < e.2 + 3600000)).length
      BitVec.ofNat 64 (min 255 s.err.waiting.length * 2 ^ 56 + min 255 n * 2 ^ 48 + min 255 hour * 2 ^ 40)
    else if 0x8000 ≤ off && off < 0x8300 then scoreWord ((off - 0x8000) / 8) s.dieState s.score
    else if 0x8300 ≤ off && off < 0x83C0 then scoreWord ((off - 0x8300) / 8) s.baseState (fun u => s.score (keyBase u))
    else if 0x8400 ≤ off && off < 0x8440 then scoreWord ((off - 0x8400) / 8) s.photState (fun b => s.score (keyPhot b))
    else if off == 0x9000 then s.bootStatus m
    else if 0xA100 ≤ off && off < 0xA118 then s.frameCtx ((off - 0xA100) / 8)
    else if off == 0xB000 then
      let w := setBits (setBits (setBits w 63 48 s.fac.rack) 47 40 s.fac.grantSeq) 39 32 s.fac.estop
      let w := setBits (setBits (setBits w 16 16 (b2n s.fac.onBackup)) 4 4 (b2n s.fac.safe)) 3 3 (b2n s.fac.held)
      setBits (setBits (setBits w 2 2 (b2n (s.facCh 1).up)) 1 1 (b2n (s.facCh 0).up)) 0 0 (b2n s.panel.facilityUp)
    else w

/-- What a read of a register shows: to firmware (partition 127), or for BAR0 to the host. -/
def State.readReg (s : State) (a : RegAddr) : W64 :=
  match a with
  | .core g off => s.coreView g off
  | .spine d off => s.spineView d off
  | .base u off => s.baseView u off
  | .slicectl _ _ => 0#64
  | .photonic b off => s.photView b off
  | .dome i off => s.domeView i off
  | .cache d off => s.cacheView d off 127
  | .bar p f off => s.barView p f off

end Sys2Proof.Machine
end

