-- ==== Sys2Proof/Machine/Dispatch.lean ====
section
/-! DEFINITION. The dispatch: one arm for each command, each one direct call of its meaning. -/

namespace Sys2Proof.Machine

def exec (i : Instr) (s : State) : Host.Outcome State Fault Refusal :=
  match i with
  | .regWrite a v => Sys2Proof.Machine.execRegWrite a v s
  | .nop g => Sys2Proof.Machine.execNop g s
  | .halt g => Sys2Proof.Machine.execHalt g s
  | .epoch g => Sys2Proof.Machine.execEpoch g s
  | .fence g x => Sys2Proof.Machine.execFence g x s
  | .add g a b c => Sys2Proof.Machine.execAdd g a b c s
  | .sub g a b c => Sys2Proof.Machine.execSub g a b c s
  | .and g a b c => Sys2Proof.Machine.execAnd g a b c s
  | .or g a b c => Sys2Proof.Machine.execOr g a b c s
  | .xor g a b c => Sys2Proof.Machine.execXor g a b c s
  | .shl g a b c => Sys2Proof.Machine.execShl g a b c s
  | .shr g a b c => Sys2Proof.Machine.execShr g a b c s
  | .sra g a b c => Sys2Proof.Machine.execSra g a b c s
  | .mul g a b c => Sys2Proof.Machine.execMul g a b c s
  | .mulhu g a b c => Sys2Proof.Machine.execMulhu g a b c s
  | .min g a b c => Sys2Proof.Machine.execMin g a b c s
  | .max g a b c => Sys2Proof.Machine.execMax g a b c s
  | .minu g a b c => Sys2Proof.Machine.execMinu g a b c s
  | .maxu g a b c => Sys2Proof.Machine.execMaxu g a b c s
  | .slt g a b c => Sys2Proof.Machine.execSlt g a b c s
  | .sltu g a b c => Sys2Proof.Machine.execSltu g a b c s
  | .addi g a b imm => Sys2Proof.Machine.execAddi g a b imm s
  | .andi g a b imm => Sys2Proof.Machine.execAndi g a b imm s
  | .ori g a b imm => Sys2Proof.Machine.execOri g a b imm s
  | .xori g a b imm => Sys2Proof.Machine.execXori g a b imm s
  | .shli g a b imm => Sys2Proof.Machine.execShli g a b imm s
  | .shri g a b imm => Sys2Proof.Machine.execShri g a b imm s
  | .srai g a b imm => Sys2Proof.Machine.execSrai g a b imm s
  | .muli g a b imm => Sys2Proof.Machine.execMuli g a b imm s
  | .slti g a b imm => Sys2Proof.Machine.execSlti g a b imm s
  | .sltiu g a b imm => Sys2Proof.Machine.execSltiu g a b imm s
  | .li g a imm => Sys2Proof.Machine.execLi g a imm s
  | .lih g a b imm => Sys2Proof.Machine.execLih g a b imm s
  | .beq g a b imm => Sys2Proof.Machine.execBeq g a b imm s
  | .bne g a b imm => Sys2Proof.Machine.execBne g a b imm s
  | .blt g a b imm => Sys2Proof.Machine.execBlt g a b imm s
  | .bge g a b imm => Sys2Proof.Machine.execBge g a b imm s
  | .bltu g a b imm => Sys2Proof.Machine.execBltu g a b imm s
  | .bgeu g a b imm => Sys2Proof.Machine.execBgeu g a b imm s
  | .jal g a imm => Sys2Proof.Machine.execJal g a imm s
  | .jalr g a b imm => Sys2Proof.Machine.execJalr g a b imm s
  | .ld g a b x imm => Sys2Proof.Machine.execLd g a b x imm s
  | .st g a b x imm => Sys2Proof.Machine.execSt g a b x imm s
  | .issueMac g b imm => Sys2Proof.Machine.execIssueMac g b imm s
  | .issueEdge g b imm => Sys2Proof.Machine.execIssueEdge g b imm s
  | .issueDma g b imm => Sys2Proof.Machine.execIssueDma g b imm s
  | .wait g b x imm => Sys2Proof.Machine.execWait g b x imm s
  | .ksub g b x imm => Sys2Proof.Machine.execKsub g b x imm s
  | .krd g a x => Sys2Proof.Machine.execKrd g a x s
  | .signal g b x imm => Sys2Proof.Machine.execSignal g b x imm s
  | .csrr g a imm => Sys2Proof.Machine.execCsrr g a imm s
  | .csrw g b imm => Sys2Proof.Machine.execCsrw g b imm s
  | .reservedOpcode g w => Sys2Proof.Machine.execReservedOpcode g w s
  | .seqStallEnd g => Sys2Proof.Machine.execSeqStallEnd g s
  | .seqStart g => Sys2Proof.Machine.execSeqStart g s
  | .seqStop g => Sys2Proof.Machine.execSeqStop g s
  | .seqResume g => Sys2Proof.Machine.execSeqResume g s
  | .seqRstart g => Sys2Proof.Machine.execSeqRstart g s
  | .recoveryClear g => Sys2Proof.Machine.execRecoveryClear g s
  | .coreReset g => Sys2Proof.Machine.execCoreReset g s
  | .macDescLeaveQueue g => Sys2Proof.Machine.execMacDescLeaveQueue g s
  | .macPrescanDone g => Sys2Proof.Machine.execMacPrescanDone g s
  | .macStreamStart g => Sys2Proof.Machine.execMacStreamStart g s
  | .macRowLand g e => Sys2Proof.Machine.execMacRowLand g e s
  | .residueReplayLand g e => Sys2Proof.Machine.execResidueReplayLand g e s
  | .haloCorrection g e => Sys2Proof.Machine.execHaloCorrection g e s
  | .driftEvaluation g => Sys2Proof.Machine.execDriftEvaluation g s
  | .macReadout g e => Sys2Proof.Machine.execMacReadout g e s
  | .macDescComplete g => Sys2Proof.Machine.execMacDescComplete g s
  | .finderCheck g e => Sys2Proof.Machine.execFinderCheck g e s
  | .pwPop g => Sys2Proof.Machine.execPwPop g s
  | .injectResidue g => Sys2Proof.Machine.execInjectResidue g s
  | .injectFinder g => Sys2Proof.Machine.execInjectFinder g s
  | .vectorIssue g w => Sys2Proof.Machine.execVectorIssue g w s
  | .vld g => Sys2Proof.Machine.execVld g s
  | .vlds g => Sys2Proof.Machine.execVlds g s
  | .vst g => Sys2Proof.Machine.execVst g s
  | .vsts g => Sys2Proof.Machine.execVsts g s
  | .vmld g => Sys2Proof.Machine.execVmld g s
  | .vmst g => Sys2Proof.Machine.execVmst g s
  | .vchld g => Sys2Proof.Machine.execVchld g s
  | .vmov g => Sys2Proof.Machine.execVmov g s
  | .vadd g => Sys2Proof.Machine.execVadd g s
  | .vsub g => Sys2Proof.Machine.execVsub g s
  | .vmul g => Sys2Proof.Machine.execVmul g s
  | .vfma g => Sys2Proof.Machine.execVfma g s
  | .vdiv g => Sys2Proof.Machine.execVdiv g s
  | .vmin g => Sys2Proof.Machine.execVmin g s
  | .vmax g => Sys2Proof.Machine.execVmax g s
  | .vabs g => Sys2Proof.Machine.execVabs g s
  | .vneg g => Sys2Proof.Machine.execVneg g s
  | .vsqrt g => Sys2Proof.Machine.execVsqrt g s
  | .vrcp g => Sys2Proof.Machine.execVrcp g s
  | .vrsqrt g => Sys2Proof.Machine.execVrsqrt g s
  | .vexp g => Sys2Proof.Machine.execVexp g s
  | .vlog g => Sys2Proof.Machine.execVlog g s
  | .vtanh g => Sys2Proof.Machine.execVtanh g s
  | .vsig g => Sys2Proof.Machine.execVsig g s
  | .vgelu g => Sys2Proof.Machine.execVgelu g s
  | .vcmp g => Sys2Proof.Machine.execVcmp g s
  | .vsel g => Sys2Proof.Machine.execVsel g s
  | .vand g => Sys2Proof.Machine.execVand g s
  | .vor g => Sys2Proof.Machine.execVor g s
  | .vxor g => Sys2Proof.Machine.execVxor g s
  | .vnot g => Sys2Proof.Machine.execVnot g s
  | .vshl g => Sys2Proof.Machine.execVshl g s
  | .vshr g => Sys2Proof.Machine.execVshr g s
  | .vsra g => Sys2Proof.Machine.execVsra g s
  | .vmop g => Sys2Proof.Machine.execVmop g s
  | .viota g => Sys2Proof.Machine.execViota g s
  | .vtrn g => Sys2Proof.Machine.execVtrn g s
  | .vred g => Sys2Proof.Machine.execVred g s
  | .vsegred g => Sys2Proof.Machine.execVsegred g s
  | .vsegscan g => Sys2Proof.Machine.execVsegscan g s
  | .vsort g => Sys2Proof.Machine.execVsort g s
  | .vcmpr g => Sys2Proof.Machine.execVcmpr g s
  | .vcvt g => Sys2Proof.Machine.execVcvt g s
  | .vqnt g => Sys2Proof.Machine.execVqnt g s
  | .vdqnt g => Sys2Proof.Machine.execVdqnt g s
  | .vchain g => Sys2Proof.Machine.execVchain g s
  | .vmark g => Sys2Proof.Machine.execVmark g s
  | .walk g => Sys2Proof.Machine.execWalk g s
  | .gather g => Sys2Proof.Machine.execGather g s
  | .dedup g => Sys2Proof.Machine.execDedup g s
  | .isect g => Sys2Proof.Machine.execIsect g s
  | .union g => Sys2Proof.Machine.execUnion g s
  | .diff g => Sys2Proof.Machine.execDiff g s
  | .sample g => Sys2Proof.Machine.execSample g s
  | .segmask g => Sys2Proof.Machine.execSegmask g s
  | .scatter g => Sys2Proof.Machine.execScatter g s
  | .hist g => Sys2Proof.Machine.execHist g s
  | .sort g => Sys2Proof.Machine.execSort g s
  | .gatherComplete g op => Sys2Proof.Machine.execGatherComplete g op s
  | .scatterComplete g op => Sys2Proof.Machine.execScatterComplete g op s
  | .edgeSmapWrite g v => Sys2Proof.Machine.execEdgeSmapWrite g v s
  | .get g => Sys2Proof.Machine.execGet g s
  | .put g => Sys2Proof.Machine.execPut g s
  | .dmaFill g => Sys2Proof.Machine.execDmaFill g s
  | .atomic g => Sys2Proof.Machine.execAtomic g s
  | .mcastRow g => Sys2Proof.Machine.execMcastRow g s
  | .mcastCol g => Sys2Proof.Machine.execMcastCol g s
  | .cinv g => Sys2Proof.Machine.execCinv g s
  | .rdreq n => Sys2Proof.Machine.execRdreq n s
  | .rdrsp n => Sys2Proof.Machine.execRdrsp n s
  | .wr n => Sys2Proof.Machine.execWr n s
  | .hwr n => Sys2Proof.Machine.execHwr n s
  | .mcast n => Sys2Proof.Machine.execMcast n s
  | .pktAck n => Sys2Proof.Machine.execPktAck n s
  | .atrsp n => Sys2Proof.Machine.execAtrsp n s
  | .pktSignal n => Sys2Proof.Machine.execPktSignal n s
  | .refuse n => Sys2Proof.Machine.execRefuse n s
  | .atomAdd n => Sys2Proof.Machine.execAtomAdd n s
  | .atomFadd n => Sys2Proof.Machine.execAtomFadd n s
  | .atomMin n => Sys2Proof.Machine.execAtomMin n s
  | .atomMinu n => Sys2Proof.Machine.execAtomMinu n s
  | .atomFmin n => Sys2Proof.Machine.execAtomFmin n s
  | .atomMax n => Sys2Proof.Machine.execAtomMax n s
  | .atomMaxu n => Sys2Proof.Machine.execAtomMaxu n s
  | .atomFmax n => Sys2Proof.Machine.execAtomFmax n s
  | .atomSwap n => Sys2Proof.Machine.execAtomSwap n s
  | .atomCas n => Sys2Proof.Machine.execAtomCas n s
  | .atomCinc n => Sys2Proof.Machine.execAtomCinc n s
  | .packetForward n crcOk => Sys2Proof.Machine.execPacketForward n crcOk s
  | .packetInject r part => Sys2Proof.Machine.execPacketInject r part s
  | .escMove n => Sys2Proof.Machine.execEscMove n s
  | .occAdvertise b => Sys2Proof.Machine.execOccAdvertise b s
  | .transitPacket n crcOk => Sys2Proof.Machine.execTransitPacket n crcOk s
  | .linkReplay r p crcOk => Sys2Proof.Machine.execLinkReplay r p crcOk s
  | .linkRetrain r p => Sys2Proof.Machine.execLinkRetrain r p s
  | .linkDown r p => Sys2Proof.Machine.execLinkDown r p s
  | .linkDownReport r p => Sys2Proof.Machine.execLinkDownReport r p s
  | .replayReportTimeout r p => Sys2Proof.Machine.execReplayReportTimeout r p s
  | .laneFail r p lane => Sys2Proof.Machine.execLaneFail r p lane s
  | .laneSpareSwitch r p lane => Sys2Proof.Machine.execLaneSpareSwitch r p lane s
  | .wavelengthFail b t plane => Sys2Proof.Machine.execWavelengthFail b t plane s
  | .wavelengthReport b t plane => Sys2Proof.Machine.execWavelengthReport b t plane s
  | .waveReportTimeout b t plane => Sys2Proof.Machine.execWaveReportTimeout b t plane s
  | .wavelengthSpareEnable b t plane => Sys2Proof.Machine.execWavelengthSpareEnable b t plane s
  | .txTimeout srouter sep tag => Sys2Proof.Machine.execTxTimeout srouter sep tag s
  | .destWriteTimeout srouter sep tag drouter dep => Sys2Proof.Machine.execDestWriteTimeout srouter sep tag drouter dep s
  | .tagRelease srouter sep tag => Sys2Proof.Machine.execTagRelease srouter sep tag s
  | .routeUpdate => Sys2Proof.Machine.execRouteUpdate s
  | .escDrainEnd => Sys2Proof.Machine.execEscDrainEnd s
  | .phRetune b => Sys2Proof.Machine.execPhRetune b s
  | .invAll d => Sys2Proof.Machine.execInvAll d s
  | .invPart d part => Sys2Proof.Machine.execInvPart d part s
  | .cacheInvDone d => Sys2Proof.Machine.execCacheInvDone d s
  | .combineWindowEnd n => Sys2Proof.Machine.execCombineWindowEnd n s
  | .hbmRefresh k => Sys2Proof.Machine.execHbmRefresh k s
  | .hbmPatrolScrub k => Sys2Proof.Machine.execHbmPatrolScrub k s
  | .ownerWrite g bank v => Sys2Proof.Machine.execOwnerWrite g bank v s
  | .scrubWriteback g => Sys2Proof.Machine.execScrubWriteback g s
  | .surveyRowStart g => Sys2Proof.Machine.execSurveyRowStart g s
  | .surveyRowEnd g marchOk => Sys2Proof.Machine.execSurveyRowEnd g marchOk s
  | .surveyRowTimeout g => Sys2Proof.Machine.execSurveyRowTimeout g s
  | .surveyRelease g => Sys2Proof.Machine.execSurveyRelease g s
  | .migrateGo g bank entry lrow source => Sys2Proof.Machine.execMigrateGo g bank entry lrow source s
  | .migrationDone g => Sys2Proof.Machine.execMigrationDone g s
  | .spMapSelect g bank entry => Sys2Proof.Machine.execSpMapSelect g bank entry s
  | .spMapWrite g bank entry state lrow => Sys2Proof.Machine.execSpMapWrite g bank entry state lrow s
  | .ceClear g => Sys2Proof.Machine.execCeClear g s
  | .zeroise g => Sys2Proof.Machine.execZeroise g s
  | .zeroiseDone g => Sys2Proof.Machine.execZeroiseDone g s
  | .sensorSample u t => Sys2Proof.Machine.execSensorSample u t s
  | .dieHoldRelease d => Sys2Proof.Machine.execDieHoldRelease d s
  | .dieHoldTrip d => Sys2Proof.Machine.execDieHoldTrip d s
  | .sensorModelTimeout u => Sys2Proof.Machine.execSensorModelTimeout u s
  | .throttleStep region => Sys2Proof.Machine.execThrottleStep region s
  | .flowRecompute => Sys2Proof.Machine.execFlowRecompute s
  | .thermalHoldDrained => Sys2Proof.Machine.execThermalHoldDrained s
  | .thermalResume => Sys2Proof.Machine.execThermalResume s
  | .precoolPlan => Sys2Proof.Machine.execPrecoolPlan s
  | .prewarmStart part => Sys2Proof.Machine.execPrewarmStart part s
  | .dewEnter d => Sys2Proof.Machine.execDewEnter d s
  | .thermalCycleCount => Sys2Proof.Machine.execThermalCycleCount s
  | .refLost die refB => Sys2Proof.Machine.execRefLost die refB s
  | .refRestore die refB => Sys2Proof.Machine.execRefRestore die refB s
  | .holdoverExit die refB => Sys2Proof.Machine.execHoldoverExit die refB s
  | .clkRowStop d south => Sys2Proof.Machine.execClkRowStop d south s
  | .clkRowWake d south => Sys2Proof.Machine.execClkRowWake d south s
  | .droopStretch d south undervoltage => Sys2Proof.Machine.execDroopStretch d south undervoltage s
  | .freqArm die change targets => Sys2Proof.Machine.execFreqArm die change targets s
  | .freqAck die => Sys2Proof.Machine.execFreqAck die s
  | .freqCommitDeadline => Sys2Proof.Machine.execFreqCommitDeadline s
  | .freqCommit die => Sys2Proof.Machine.execFreqCommit die s
  | .freqSwitch die => Sys2Proof.Machine.execFreqSwitch die s
  | .pclSetV m ch mv => Sys2Proof.Machine.execPclSetV m ch mv s
  | .pclEnable m ch on => Sys2Proof.Machine.execPclEnable m ch on s
  | .pclRetain m target mv region enter => Sys2Proof.Machine.execPclRetain m target mv region enter s
  | .pclSetIlim m ch lim => Sys2Proof.Machine.execPclSetIlim m ch lim s
  | .pclRead m ch => Sys2Proof.Machine.execPclRead m ch s
  | .pclClaim m link => Sys2Proof.Machine.execPclClaim m link s
  | .pclHeartbeat m link => Sys2Proof.Machine.execPclHeartbeat m link s
  | .pclRelease m link => Sys2Proof.Machine.execPclRelease m link s
  | .pclAck link seq => Sys2Proof.Machine.execPclAck link seq s
  | .pclNak link seq reason => Sys2Proof.Machine.execPclNak link seq reason s
  | .pclTelem link region entries => Sys2Proof.Machine.execPclTelem link region entries s
  | .pclEvent ch kind => Sys2Proof.Machine.execPclEvent ch kind s
  | .pclStatus ch mv entry => Sys2Proof.Machine.execPclStatus ch mv entry s
  | .pclVheart link mv ma10 => Sys2Proof.Machine.execPclVheart link mv ma10 s
  | .pclResend link seq => Sys2Proof.Machine.execPclResend link seq s
  | .pclRetrain link ok => Sys2Proof.Machine.execPclRetrain link ok s
  | .pclClaimTimeout link => Sys2Proof.Machine.execPclClaimTimeout link s
  | .pclReclaim link => Sys2Proof.Machine.execPclReclaim link s
  | .channelTrip ch => Sys2Proof.Machine.execChannelTrip ch s
  | .blockDark b => Sys2Proof.Machine.execBlockDark b s
  | .vpmInputFault => Sys2Proof.Machine.execVpmInputFault s
  | .accountingTick => Sys2Proof.Machine.execAccountingTick s
  | .accountingWindow part => Sys2Proof.Machine.execAccountingWindow part s
  | .commandAdmit part => Sys2Proof.Machine.execCommandAdmit part s
  | .runComplete h => Sys2Proof.Machine.execRunComplete h s
  | .commandComplete h => Sys2Proof.Machine.execCommandComplete h s
  | .runTimeout h => Sys2Proof.Machine.execRunTimeout h s
  | .partCreateDone part => Sys2Proof.Machine.execPartCreateDone part s
  | .partDestroyDone part => Sys2Proof.Machine.execPartDestroyDone part s
  | .sqTail p f ring v => Sys2Proof.Machine.execSqTail p f ring v s
  | .rqHead p f v => Sys2Proof.Machine.execRqHead p f v s
  | .cqHead p f v => Sys2Proof.Machine.execCqHead p f v s
  | .logHead p f v => Sys2Proof.Machine.execLogHead p f v s
  | .ringCfgWrite p f off v => Sys2Proof.Machine.execRingCfgWrite p f off v s
  | .ringReset p f => Sys2Proof.Machine.execRingReset p f s
  | .commandFetch p => Sys2Proof.Machine.execCommandFetch p s
  | .cqInterrupt p f => Sys2Proof.Machine.execCqInterrupt p f s
  | .hostLinkUp p => Sys2Proof.Machine.execHostLinkUp p s
  | .hostLinkDown p => Sys2Proof.Machine.execHostLinkDown p s
  | .functionLevelReset p f => Sys2Proof.Machine.execFunctionLevelReset p f s
  | .orphanGraceExpire part => Sys2Proof.Machine.execOrphanGraceExpire part s
  | .hostNop p f ring q => Sys2Proof.Machine.execHostNop p f ring q s
  | .queryCap p f ring q => Sys2Proof.Machine.execQueryCap p f ring q s
  | .queryPart p f ring q => Sys2Proof.Machine.execQueryPart p f ring q s
  | .queryHandle p f ring q => Sys2Proof.Machine.execQueryHandle p f ring q s
  | .queryOffered p f ring q => Sys2Proof.Machine.execQueryOffered p f ring q s
  | .bind p f ring q => Sys2Proof.Machine.execBind p f ring q s
  | .unbind p f ring q => Sys2Proof.Machine.execUnbind p f ring q s
  | .adminChallenge p f ring q => Sys2Proof.Machine.execAdminChallenge p f ring q s
  | .adminRequest p f ring q => Sys2Proof.Machine.execAdminRequest p f ring q s
  | .adminEnrol p f ring q => Sys2Proof.Machine.execAdminEnrol p f ring q s
  | .adminRelease p f ring q => Sys2Proof.Machine.execAdminRelease p f ring q s
  | .partCreate p f ring q => Sys2Proof.Machine.execPartCreate p f ring q s
  | .partResize p f ring q => Sys2Proof.Machine.execPartResize p f ring q s
  | .partDestroy p f ring q => Sys2Proof.Machine.execPartDestroy p f ring q s
  | .setQuota p f ring q => Sys2Proof.Machine.execSetQuota p f ring q s
  | .setOrphan p f ring q => Sys2Proof.Machine.execSetOrphan p f ring q s
  | .pause p f ring q => Sys2Proof.Machine.execPause p f ring q s
  | .resume p f ring q => Sys2Proof.Machine.execResume p f ring q s
  | .ephemeris p f ring q => Sys2Proof.Machine.execEphemeris p f ring q s
  | .memAlloc p f ring q => Sys2Proof.Machine.execMemAlloc p f ring q s
  | .memFree p f ring q => Sys2Proof.Machine.execMemFree p f ring q s
  | .copyIn p f ring q => Sys2Proof.Machine.execCopyIn p f ring q s
  | .copyOut p f ring q => Sys2Proof.Machine.execCopyOut p f ring q s
  | .fill p f ring q => Sys2Proof.Machine.execFill p f ring q s
  | .checkpoint p f ring q => Sys2Proof.Machine.execCheckpoint p f ring q s
  | .check p f ring q => Sys2Proof.Machine.execCheck p f ring q s
  | .run p f ring q => Sys2Proof.Machine.execRun p f ring q s
  | .abort p f ring q => Sys2Proof.Machine.execAbort p f ring q s
  | .setReg p f ring q => Sys2Proof.Machine.execSetReg p f ring q s
  | .fwUpdate p f ring q => Sys2Proof.Machine.execFwUpdate p f ring q s
  | .fwImageStaged h => Sys2Proof.Machine.execFwImageStaged h s
  | .fwActivate => Sys2Proof.Machine.execFwActivate s
  | .debugChallenge p f ring q => Sys2Proof.Machine.execDebugChallenge p f ring q s
  | .debugUnlock p f ring q => Sys2Proof.Machine.execDebugUnlock p f ring q s
  | .debugRelock p f ring q => Sys2Proof.Machine.execDebugRelock p f ring q s
  | .logRing p f ring q => Sys2Proof.Machine.execLogRing p f ring q s
  | .setCeiling p f ring q => Sys2Proof.Machine.execSetCeiling p f ring q s
  | .hostReservedOpcode p f ring q => Sys2Proof.Machine.execHostReservedOpcode p f ring q s
  | .errorHandlingStart => Sys2Proof.Machine.execErrorHandlingStart s
  | .stormEnd => Sys2Proof.Machine.execStormEnd s
  | .recoveryDrainEnd => Sys2Proof.Machine.execRecoveryDrainEnd s
  | .recoveryRestoreDone => Sys2Proof.Machine.execRecoveryRestoreDone s
  | .epochCommit h => Sys2Proof.Machine.execEpochCommit h s
  | .mirrorCopyDone g => Sys2Proof.Machine.execMirrorCopyDone g s
  | .ctrlHeartbeat m => Sys2Proof.Machine.execCtrlHeartbeat m s
  | .controllerTakeover m => Sys2Proof.Machine.execControllerTakeover m s
  | .mgmtAgentLost die netA netB => Sys2Proof.Machine.execMgmtAgentLost die netA netB s
  | .seqWatchdog g => Sys2Proof.Machine.execSeqWatchdog g s
  | .healthScoreHourly => Sys2Proof.Machine.execHealthScoreHourly s
  | .scoreExpulsion d => Sys2Proof.Machine.execScoreExpulsion d s
  | .retestStart u => Sys2Proof.Machine.execRetestStart u s
  | .retestDone u pass => Sys2Proof.Machine.execRetestDone u pass s
  | .baseDieResetDone u ok => Sys2Proof.Machine.execBaseDieResetDone u ok s
  | .logCoalesceFlush source loc => Sys2Proof.Machine.execLogCoalesceFlush source loc s
  | .progressReport => Sys2Proof.Machine.execProgressReport s
  | .coldStart => Sys2Proof.Machine.execColdStart s
  | .pgoodAssert p => Sys2Proof.Machine.execPgoodAssert p s
  | .perstDeassert p => Sys2Proof.Machine.execPerstDeassert p s
  | .perstAssert p => Sys2Proof.Machine.execPerstAssert p s
  | .romBoot m => Sys2Proof.Machine.execRomBoot m s
  | .pendingImageTimeout m => Sys2Proof.Machine.execPendingImageTimeout m s
  | .romRecoveryImage m chunk last => Sys2Proof.Machine.execRomRecoveryImage m chunk last s
  | .halfPowerUp m => Sys2Proof.Machine.execHalfPowerUp m s
  | .chainTest m fails => Sys2Proof.Machine.execChainTest m fails s
  | .almanacMerge => Sys2Proof.Machine.execAlmanacMerge s
  | .linkTrain => Sys2Proof.Machine.execLinkTrain s
  | .workMap => Sys2Proof.Machine.execWorkMap s
  | .soleTakeover m => Sys2Proof.Machine.execSoleTakeover m s
  | .controllerReturn m => Sys2Proof.Machine.execControllerReturn m s
  | .controllerRestart m => Sys2Proof.Machine.execControllerRestart m s
  | .controllerRestartDone m => Sys2Proof.Machine.execControllerRestartDone m s
  | .getVersion p => Sys2Proof.Machine.execGetVersion p s
  | .getCapabilities p => Sys2Proof.Machine.execGetCapabilities p s
  | .negotiateAlgorithms p => Sys2Proof.Machine.execNegotiateAlgorithms p s
  | .getDigests p => Sys2Proof.Machine.execGetDigests p s
  | .getCertificate p slot off len => Sys2Proof.Machine.execGetCertificate p slot off len s
  | .challenge p nonce => Sys2Proof.Machine.execChallenge p nonce s
  | .getMeasurements p index nonce => Sys2Proof.Machine.execGetMeasurements p index nonce s
  | .spdmUnsupported p code => Sys2Proof.Machine.execSpdmUnsupported p code s
  | .facHeartbeat ch alive v => Sys2Proof.Machine.execFacHeartbeat ch alive v s
  | .facCeiling ch alive v => Sys2Proof.Machine.execFacCeiling ch alive v s
  | .facFlow ch alive v => Sys2Proof.Machine.execFacFlow ch alive v s
  | .facInletTemp ch alive v => Sys2Proof.Machine.execFacInletTemp ch alive v s
  | .facVpmStatus ch alive v => Sys2Proof.Machine.execFacVpmStatus ch alive v s
  | .facEstop ch alive v => Sys2Proof.Machine.execFacEstop ch alive v s
  | .facFrameCrcError ch => Sys2Proof.Machine.execFacFrameCrcError ch s
  | .facFrameMalformed ch alive => Sys2Proof.Machine.execFacFrameMalformed ch alive s
  | .facChannelDown ch => Sys2Proof.Machine.execFacChannelDown ch s
  | .facilitySilent => Sys2Proof.Machine.execFacilitySilent s
  | .silentHoldEnd => Sys2Proof.Machine.execSilentHoldEnd s
  | .panelHeartbeat => Sys2Proof.Machine.execPanelHeartbeat s
  | .panelStatus => Sys2Proof.Machine.execPanelStatus s
  | .precool => Sys2Proof.Machine.execPrecool s
  | .chkGo u => Sys2Proof.Machine.execChkGo u s
  | .chkAbort u => Sys2Proof.Machine.execChkAbort u s
  | .chkScanDone u => Sys2Proof.Machine.execChkScanDone u s
  | .blockRestore b => Sys2Proof.Machine.execBlockRestore b s
  | .wavelengthRetest b t plane pass => Sys2Proof.Machine.execWavelengthRetest b t plane pass s
  | .combSourceFail b => Sys2Proof.Machine.execCombSourceFail b s
  | .securityAlarm => Sys2Proof.Machine.execSecurityAlarm s
  | .routerLogicError u => Sys2Proof.Machine.execRouterLogicError u s
  | .tapAccess op => Sys2Proof.Machine.execTapAccess op s
  | .halfIsolation isolate => Sys2Proof.Machine.execHalfIsolation isolate s

end Sys2Proof.Machine
end

