-- ==== Sys2Proof/Machine/Tick.lean ====
section
/-! DEFINITION. What a cycle of the always-on 25 MHz clock does when no command is waiting (log entry 5): the counters that
count time go on, agents and edge engines issue what they can, firmware's copies move on, and a panel reset that is due takes
place. -/

namespace Sys2Proof.Machine

/-- The row clocks that run, as 2·die + row, with the arithmetic cycles of one 40 ns cycle: the frequency code (R338, R339). -/
def State.rowsRun (s : State) : List (Nat × Nat) :=
  (List.range 384).flatMap (fun d =>
    (List.range 2).filterMap (fun h =>
      if s.flag (spinePage d) (rowRun (h == 1)) then some (2 * d + h, s.dieCode d) else none))

/-- n arithmetic cycles of the MAC array and its Finder: the Finder works off its backlog (R76), and cycles in which a
stream waits on a full halo queue or on the Finder are counted (R55, R64, R76, R91). -/
def State.countMac (s : State) (g n : Nat) : State :=
  let m := s.mac g
  let waits := (s.core g).enginesRun && m.runs.any (fun r => r.phase == .stream)
  let s := if m.busy then s.addWrap (corePage g) MAC_BUSY_CYCLES_W n else s
  let s := if waits && m.haloFull then s.addWrap (corePage g) MAC_HALO_STALL_W n else s
  let s := if waits && m.finderFull then s.addWrap (corePage g) FINDER_STALL_W n else s
  if m.backlog == 0 then s else s.setMac g { s.mac g with backlog := m.backlog - 1024 * n }

/-- The counters of a core in a row that runs n arithmetic cycles (R64, R160, R188, R327). -/
def State.countCore (s : State) (g n : Nat) : State :=
  let c := s.core g
  let s := if s.coreIdle g then s else s.addWrap (spinePage (dieOfSite g)) (PM_ACTIVE_W (g % 16)) n
  let s := s.countMac g n
  let s := if c.vec.busy then s.addWrap (corePage g) VEC_BUSY_CYCLES_W n else s
  if c.edge.busy then s.addWrap (corePage g) EDGE_BUSY_CYCLES_W n else s

/-- Active time of the partitions (R423): a RUN of it runs. -/
def State.countActive (s : State) : State :=
  if s.therm.hold != 0 || s.err.storm then s
  else partIds.foldl (fun s q =>
    if (s.prt q).state == .active && s.handles.any (fun h => h.part == q && h.opcode == 0x30 && h.state == .running) then
      s.updPrt q (fun x => { x with activeMs := x.activeMs + 1 })
    else s) s

/-- Routers whose die throttles count throttled fabric cycles, 64 in 40 ns (R266, R275). -/
def State.countThrottled (s : State) : State :=
  let l := (s.fab.packets.filterMap (fun k => match k.loc with | .injq r => some r | _ => none)).eraseDups
  l.foldl (fun s r => if s.flag (routerPage r) RT_STATUS_THROTTLING && s.routerRuns r then s.addWrap (routerPage r) (RT_COUNT_W 5) 64
    else s) s

/-- One cycle of the always-on clock (R342). -/
def tick (s : State) : State :=
  let s := s.resetDue
  if !s.power.vpmIn then s
  else
    let s := { s with power := { s.power with aon := s.power.aon + 1 }, fab := { s.fab with admitted := [] } }
    let rows := s.rowsRun
    let rc := rows.foldl (fun (t : Tab Nat) (e : Nat × Nat) => Tab.set t e.1 (Tab.getD t e.1 0 + e.2)) s.power.rowCycles
    let s := { s with power := { s.power with rowCycles := rc } }
    let busy := s.cores.filterMap (fun (e : Nat × Core) =>
      (rows.find? (fun r => r.1 == 2 * dieOfSite e.1 + e.1 % 16 / 8)).map (fun r => (e.1, r.2)))
    let s := busy.foldl (fun s (e : Nat × Nat) => s.countCore e.1 e.2) s
    let s := s.countThrottled
    let s := busy.foldl (fun s (e : Nat × Nat) => s.pump e.1) s
    let s := s.copyAll
    if s.power.aon % 25000 == 0 then s.countActive else s

end Sys2Proof.Machine
end

