-- ==== Sys2Proof/Safety.lean ====
section
/-! DEFINITION. What counts as a safe state: the memory and the register file keep their canonical form. -/

namespace Sys2Proof.Machine

/-- The canonical form of the state's memory, and of its register file: keys rise strictly. -/
def State.safe (s : State) : Bool := Memory.wf s.mem && Tab.sorted s.regs

end Sys2Proof.Machine
end

