-- ==== Sys2Proof/Certificates/Slice0/Obligations.lean ====
section
/-! DEFINITION. The statements about the panel, for the provers. Each docstring names the rules it draws on. A statement
about a command says that exec answers a next state and what that state holds; hypotheses are about the state and the
operands alone. -/

open Sys2Proof Sys2Proof.Machine

/-! ## The sequencer -/

/-- Command c answers a next state t of which P holds. -/
def Answers (c : Instr) (s : State) (P : State → Prop) : Prop := ∃ t, exec c s = .next t ∧ P t

/-- Site g's sequencer runs and can fetch at its PC: the PC lies in the scratchpad (R94), in banks the sequencer owns
(R95), and the instruction buffer holds it or its bytes hold no uncorrectable granule (R95, R191). -/
def CanIssue (s : State) (g : Nat) : Prop :=
  siteOk g = true ∧ (s.core g).seq = .run ∧ (s.core g).pc < 786432 ∧ s.owns g 0 (8 * (s.core g).pc) 8 = true
    ∧ ((s.core g).pc ∈ (s.core g).ibuf ∨ s.spPoison g (8 * (s.core g).pc) 8 = none)

/-- The instruction buffer holds the instruction at the PC, as the latest of at most 256 (R95). -/
def bufferedPc (c : Core) : Core := { c with ibuf := (c.pc :: c.ibuf.filter (fun q => q != c.pc)).take 256 }

/-- The state once the instruction is fetched: from the instruction buffer without a scratchpad access (R95), or from the
scratchpad, where what the fetch met is corrected (R192). -/
def fetched (s : State) (g : Nat) : State :=
  if (s.core g).ibuf.contains (s.core g).pc then s.setCore g (bufferedPc (s.core g))
  else (s.correctAll g (8 * (s.core g).pc) 8 1).updCore g bufferedPc

/-- Between u and t, site g's instruction has retired: RETIRED counts it, and no other register of any page, no byte, no
other core and nothing else but the core itself differs. -/
def Retires (u t : State) (g : Nat) : Prop :=
  t = { u with cores := t.cores, regs := t.regs }
    ∧ (∀ h, h ≠ g → t.core h = u.core h)
    ∧ (∀ k d, k ≠ corePage g + 0x430 → t.reg k d = u.reg k d)
    ∧ t.reg (corePage g + 0x430) 0 = u.reg (corePage g + 0x430) 0 + 1#64

/-- Between u and t, site g's instruction has retired at the next PC, general register a holds v (c0 still reads zero),
and nothing else of the core differs. -/
def Writes (u : State) (g : Nat) (a : BitVec 5) (v : W64) (t : State) : Prop :=
  Retires u t g
    ∧ t.core g = { u.core g with c := (t.core g).c, pc := (u.core g).pc + 1 }
    ∧ ∀ i, (t.core g).reg i = if i = a.toNat ∧ i ≠ 0 then v else (u.core g).reg i

/-- Between u and t, site g's instruction has retired with the next instruction at pc, and nothing else of the core
differs. -/
def Goes (u : State) (g pc : Nat) (t : State) : Prop :=
  Retires u t g ∧ t.core g = { u.core g with pc := pc }

/-- Between u and t, site g's sequencer has stalled for r, and nothing else differs. -/
def Stalls (u : State) (g : Nat) (r : Stall) (t : State) : Prop :=
  t = { u with cores := t.cores } ∧ (∀ h, h ≠ g → t.core h = u.core h)
    ∧ t.core g = { u.core g with seq := .wait, stall := some r }

/-- No byte of a scratchpad or of HBM differs between u and t; host memory, where records and notices go, may. -/
def KeepsPanelBytes (u t : State) : Prop :=
  Memory.wf u.mem = true → ∀ z, z < 2 ^ 60 → memGet t.mem z = memGet u.mem z

/-- Site g has faulted as the sequencer (R125, R126): it is FAULTED with its queues discarded, FAULT_REC holds the kind,
ENGINE 0, the PC, the instruction word and the address, SEQ_STATUS.FAULT is set, and no byte of the panel has changed. -/
def SeqFaults (u : State) (g kind : Nat) (insn addr : W64) (t : State) : Prop :=
  (t.core g).seq = .faulted ∧ (t.core g).pc = (u.core g).pc ∧ (t.core g).c = (u.core g).c
    ∧ (t.core g).mac.q = [] ∧ (t.core g).vec.q = [] ∧ (t.core g).edge.q = [] ∧ (t.core g).dma.q = []
    ∧ bits (t.reg (corePage g + 0x468) 0) 63 56 = kind ∧ bits (t.reg (corePage g + 0x468) 0) 55 52 = 0
    ∧ bits (t.reg (corePage g + 0x468) 0) 51 32 = (u.core g).pc % 2 ^ 20
    ∧ t.reg (corePage g + 0x470) 0 = insn ∧ t.reg (corePage g + 0x478) 0 = addr
    ∧ t.flag (corePage g) SEQ_STATUS_FAULT = true ∧ KeepsPanelBytes u t

/-- R98: the three-register instructions write c[A] from c[B] and c[C], and nothing else changes but PC and RETIRED. -/
def Obligations.ThreeRegisterResults : Prop :=
  ∀ (s : State) (g : Nat) (a b c : BitVec 5), CanIssue s g →
    let u := fetched s g
    let x := (u.core g).reg b.toNat
    let y := (u.core g).reg c.toNat
    let res := fun (i : Instr) (v : W64) => Answers i s (Writes u g a v)
    res (.add g a b c) (x + y) ∧ res (.sub g a b c) (x - y) ∧ res (.and g a b c) (x &&& y) ∧ res (.or g a b c) (x ||| y)
      ∧ res (.xor g a b c) (x ^^^ y) ∧ res (.shl g a b c) (BitVec.ofNat 64 (x.toNat * 2 ^ (y.toNat % 64)))
      ∧ res (.shr g a b c) (BitVec.ofNat 64 (x.toNat / 2 ^ (y.toNat % 64)))
      ∧ res (.sra g a b c) (x.sshiftRight (y.toNat % 64))
      ∧ res (.mul g a b c) (BitVec.ofNat 64 (x.toNat * y.toNat))
      ∧ res (.mulhu g a b c) (BitVec.ofNat 64 (x.toNat * y.toNat / 2 ^ 64))
      ∧ res (.min g a b c) (if x.toInt ≤ y.toInt then x else y) ∧ res (.max g a b c) (if x.toInt ≤ y.toInt then y else x)
      ∧ res (.minu g a b c) (if x.toNat ≤ y.toNat then x else y) ∧ res (.maxu g a b c) (if x.toNat ≤ y.toNat then y else x)
      ∧ res (.slt g a b c) (if x.toInt < y.toInt then 1#64 else 0#64)
      ∧ res (.sltu g a b c) (if x.toNat < y.toNat then 1#64 else 0#64)

/-- R98: the immediate instructions write c[A] from c[B] and the sign-extended immediate; LI and LIH. -/
def ImmediateResultsRule : Prop :=
  ∀ (s : State) (g : Nat) (a b : BitVec 5) (imm : W32), CanIssue s g →
    let u := fetched s g
    let x := (u.core g).reg b.toNat
    let y := imm.signExtend 64
    let res := fun (i : Instr) (v : W64) => Answers i s (Writes u g a v)
    res (.addi g a b imm) (x + y) ∧ res (.andi g a b imm) (x &&& y) ∧ res (.ori g a b imm) (x ||| y)
      ∧ res (.xori g a b imm) (x ^^^ y) ∧ res (.muli g a b imm) (BitVec.ofNat 64 (x.toNat * y.toNat))
      ∧ res (.slti g a b imm) (if x.toInt < y.toInt then 1#64 else 0#64)
      ∧ res (.sltiu g a b imm) (if x.toNat < y.toNat then 1#64 else 0#64)
      ∧ res (.li g a imm) y
      ∧ res (.lih g a b imm) (BitVec.ofNat 64 (imm.toNat * 2 ^ 32 + x.toNat % 2 ^ 32))

/-- R98: the immediate shifts by IMM[5:0]; with IMM[31:6] not zero they are illegal and fault (R99, R127). -/
def ImmediateShiftResultsRule : Prop :=
  ∀ (s : State) (g : Nat) (a b : BitVec 5) (imm : W32), CanIssue s g →
    let u := fetched s g
    let x := (u.core g).reg b.toNat
    (imm.toNat < 64 →
      Answers (.shli g a b imm) s (Writes u g a (BitVec.ofNat 64 (x.toNat * 2 ^ imm.toNat)))
        ∧ Answers (.shri g a b imm) s (Writes u g a (BitVec.ofNat 64 (x.toNat / 2 ^ imm.toNat)))
        ∧ Answers (.srai g a b imm) s (Writes u g a (x.sshiftRight imm.toNat)))
    ∧ (64 ≤ imm.toNat →
      Answers (.shli g a b imm) s (SeqFaults u g 0x01 (encI 0x24 a b imm) 0#64)
        ∧ Answers (.shri g a b imm) s (SeqFaults u g 0x01 (encI 0x25 a b imm) 0#64)
        ∧ Answers (.srai g a b imm) s (SeqFaults u g 0x01 (encI 0x26 a b imm) 0#64))

/-- R98: `ImmediateResultsRule` and `ImmediateShiftResultsRule`. -/
def Obligations.ImmediateResults : Prop := ImmediateResultsRule ∧ ImmediateShiftResultsRule

/-- R98, R100: a branch goes to PC + sext(IMM) when its condition holds and to the next instruction when not; JAL and JALR
leave PC + 1 in c[A]; JALR's target is c[B] + sext(IMM) of before. A target outside 0–786,431 faults RANGE there; at a PC in a
bank the sequencer does not own, whatever the instruction, the fetch faults BANK with that PC. -/
def Obligations.BranchesAndJumps : Prop :=
  ∀ (s : State) (g : Nat) (a b : BitVec 5) (imm : W32), CanIssue s g →
    let u := fetched s g
    let pc := (u.core g).pc
    let x := (u.core g).reg a.toNat
    let y := (u.core g).reg b.toNat
    let t := BitVec.ofNat 64 pc + imm.signExtend 64
    let br := fun (i : Instr) (op : Nat) (p : Prop) =>
      (¬p → Answers i s (Goes u g (pc + 1)))
        ∧ (p → t.toNat < 786432 → Answers i s (Goes u g t.toNat))
        ∧ (p → 786432 ≤ t.toNat → Answers i s (SeqFaults u g 0x02 (encI op a b imm) (t <<< 3)))
    br (.beq g a b imm) 0x30 (x = y) ∧ br (.bne g a b imm) 0x31 (x ≠ y) ∧ br (.blt g a b imm) 0x32 (x.toInt < y.toInt)
      ∧ br (.bge g a b imm) 0x33 (y.toInt ≤ x.toInt) ∧ br (.bltu g a b imm) 0x34 (x.toNat < y.toNat)
      ∧ br (.bgeu g a b imm) 0x35 (y.toNat ≤ x.toNat)
      ∧ (t.toNat < 786432 → Answers (.jal g a imm) s (fun r => Retires u r g ∧ (r.core g).pc = t.toNat
          ∧ ∀ i, (r.core g).reg i = if i = a.toNat ∧ i ≠ 0 then BitVec.ofNat 64 (pc + 1) else (u.core g).reg i))
      ∧ (786432 ≤ t.toNat → Answers (.jal g a imm) s (SeqFaults u g 0x02 (encI 0x36 a 0#5 imm) (t <<< 3)))
      ∧ ((y + imm.signExtend 64).toNat < 786432 → Answers (.jalr g a b imm) s (fun r => Retires u r g
          ∧ (r.core g).pc = (y + imm.signExtend 64).toNat
          ∧ ∀ i, (r.core g).reg i = if i = a.toNat ∧ i ≠ 0 then BitVec.ofNat 64 (pc + 1) else (u.core g).reg i))
      ∧ (786432 ≤ (y + imm.signExtend 64).toNat →
          Answers (.jalr g a b imm) s (SeqFaults u g 0x02 (encI 0x37 a b imm) ((y + imm.signExtend 64) <<< 3)))
      ∧ ∀ w : State, (w.core g).seq = .run → (w.core g).pc < 786432 → w.owns g 0 (8 * (w.core g).pc) 8 = false →
          let at1 := fun (i : Instr) (k : W64) => Answers i w (SeqFaults w g 0x03 k (BitVec.ofNat 64 (8 * (w.core g).pc)))
          at1 (.nop g) (encR 0x00 0#5 0#5 0#5) ∧ at1 (.jal g a imm) (encI 0x36 a 0#5 imm) ∧ at1 (.ld g a b 0#9 imm) (encI 0x40 a b imm)
            ∧ at1 (.halt g) (encR 0x01 0#5 0#5 0#5)

/-- R98, R99, R191: LD of 2^X[1:0] bytes at c[B] + sext(IMM), zero-extended or with X[2] sign-extended, changes c[A], PC and
RETIRED; correctable granules it meets are corrected; no byte of the panel changes. Outside the scratchpad it faults RANGE. -/
def Obligations.LoadResult : Prop :=
  ∀ (s : State) (g : Nat) (a b : BitVec 5) (x : BitVec 9) (imm : W32), CanIssue s g → x.toNat < 8 →
    let u := fetched s g
    let n := 2 ^ (x.toNat % 4)
    let addr := ((u.core g).reg b.toNat + imm.signExtend 64).toNat
    let v := memRead u.mem (spBase g + addr) n
    (addr + n ≤ 6291456 → u.owns g 0 addr n = true → u.spPoison g addr n = none →
      Answers (.ld g a b x imm) s (fun t => Writes (u.correctAll g addr n 1) g a
        (BitVec.ofInt 64 (if 4 ≤ x.toNat ∧ 2 ^ (8 * n - 1) ≤ v then (v : Int) - 2 ^ (8 * n) else v)) t
        ∧ KeepsPanelBytes s t))
    ∧ (6291456 < addr + n → Answers (.ld g a b x imm) s
        (SeqFaults u g 0x02 (encInsn 0x40 a b 0#5 x imm) (BitVec.ofNat 64 addr)))

/-- R98, R99, R190: ST stores the low 2^X[1:0] bytes of c[A] at c[B] + sext(IMM); every other byte of memory, every general
register and every other core keep their values, and a poisoned granule it does not cover whole stays poisoned. -/
def Obligations.StoreResult : Prop :=
  ∀ (s : State) (g : Nat) (a b : BitVec 5) (x : BitVec 9) (imm : W32), CanIssue s g → x.toNat < 4 →
    let u := fetched s g
    Memory.wf u.mem = true →
    let n := 2 ^ x.toNat
    let addr := ((u.core g).reg b.toNat + imm.signExtend 64).toNat
    let v := ((u.core g).reg a.toNat).toNat
    addr + n ≤ 6291456 → u.owns g 0 addr n = true →
      Answers (.st g a b x imm) s (fun t =>
        (∀ i, i < n → memGet t.mem (spBase g + addr + i) = BitVec.ofNat 8 (v / 256 ^ i))
          ∧ (∀ z, z < spBase g + addr ∨ spBase g + addr + n ≤ z → memGet t.mem z = memGet u.mem z)
          ∧ (∀ q, q ∈ t.poison ↔ q ∈ u.poison ∧ ¬(q % 8 = 0 ∧ spBase g + addr ≤ q ∧ q + 8 ≤ spBase g + addr + n))
          ∧ (t.core g).pc = (u.core g).pc + 1 ∧ (∀ i, (t.core g).reg i = (u.core g).reg i)
          ∧ ∀ h, h ≠ g → t.core h = u.core h)

/-- R98, R99, R113: WAIT goes on when k[X] is at least c[B] + sext(IMM) and stalls when it is below; KSUB subtracts it and
stops at zero; KRD reads k[X]. X[8:4] not zero, or an operand above 65,535, is illegal. -/
def Obligations.CounterInstructions : Prop :=
  ∀ (s : State) (g : Nat) (a b : BitVec 5) (x : BitVec 9) (imm : W32), CanIssue s g →
    let u := fetched s g
    let v := ((u.core g).reg b.toNat + imm.signExtend 64).toNat
    let k := ((u.core g).kVal x.toNat).toNat
    (x.toNat < 16 → v ≤ k → Answers (.wait g b x imm) s (Goes u g ((u.core g).pc + 1)))
      ∧ (x.toNat < 16 → k < v → v ≤ 65535 → Answers (.wait g b x imm) s (Stalls u g (.counter x.toNat v)))
      ∧ (x.toNat < 16 → v ≤ 65535 → Answers (.ksub g b x imm) s (fun t => Retires u t g
          ∧ (∀ j, (t.core g).kVal j = if j = x.toNat then BitVec.ofNat 16 (k - v) else (u.core g).kVal j)
          ∧ t.core g = { u.core g with k := (t.core g).k, pc := (u.core g).pc + 1 }))
      ∧ (x.toNat < 16 → Answers (.krd g a x) s (Writes u g a (BitVec.ofNat 64 k)))
      ∧ (16 ≤ x.toNat ∨ 65535 < v →
          Answers (.wait g b x imm) s (SeqFaults u g 0x01 (encInsn 0x60 0#5 b 0#5 x imm) 0#64)
            ∧ Answers (.ksub g b x imm) s (SeqFaults u g 0x01 (encInsn 0x61 0#5 b 0#5 x imm) 0#64))

/-- What FENCE with X selects is done at site g: bit 0 the MAC queue, bit 1 the vector queue, bit 2 the edge queue, bit 3 the DMA
queue, each with what is in progress, bit 4 the acknowledgements counted in UNACKED. -/
def FenceDone (s : State) (g : Nat) (x : BitVec 9) : Prop :=
  let c := s.core g
  (x.getLsbD 0 = true → c.mac.q = [] ∧ c.mac.runs = []) ∧ (x.getLsbD 1 = true → c.vec.q = [])
    ∧ (x.getLsbD 2 = true → c.edge.q = [] ∧ c.edge.ops = [])
    ∧ (x.getLsbD 3 = true → c.dma.q = [] ∧ ∀ o ∈ c.dma.ops, o.done = true)
    ∧ (x.getLsbD 4 = true → s.unacked g = 0)

/-- R115: FENCE goes on when every operation that X[4:0] selects has completed, and stalls the sequencer until then; with X = 0
it is a NOP; X[8:5] must be zero, else it is illegal. -/
def Obligations.FenceWaitsForSelectedWork : Prop :=
  ∀ (s : State) (g : Nat) (x : BitVec 9),
    (CanIssue s g →
      let u := fetched s g
      (x.toNat < 32 → FenceDone u g x → Answers (.fence g x) s (Goes u g ((u.core g).pc + 1)))
      ∧ (x.toNat < 32 → ¬FenceDone u g x → Answers (.fence g x) s (Stalls u g (.fence x.toNat)))
      ∧ (32 ≤ x.toNat → Answers (.fence g x) s (SeqFaults u g 0x01 (encInsn 0x03 0#5 0#5 0#5 x 0#32) 0#64))
      ∧ ∃ t, exec (.fence g 0#9) s = .next t ∧ exec (.nop g) s = .next t)
    ∧ (siteOk g = true → (s.core g).seq = .wait → (s.core g).stall = some (.fence x.toNat) →
      (FenceDone s g x → Answers (.seqStallEnd g) s (fun t => Retires s t g
          ∧ t.core g = { s.core g with seq := .run, stall := none, pc := (s.core g).pc + 1 }))
      ∧ (¬FenceDone s g x → exec (.seqStallEnd g) s = .next s))

/-- R117, R118: NOP goes on; HALT of a core whose work and Finder are done ends in HALTED; EPOCH of a core whose work is done reports the arrival and waits. -/
def HaltAndEpochRule : Prop :=
  ∀ (s : State) (g : Nat), CanIssue s g →
    let u := fetched s g
    Answers (.nop g) s (Goes u g ((u.core g).pc + 1))
      ∧ (u.fenced g 0x1F = true → (u.core g).mac.finder = [] → Answers (.halt g) s (fun t => Retires u t g
          ∧ (t.core g).seq = .halted ∧ (t.core g).c = (u.core g).c ∧ (t.core g).k = (u.core g).k))
      ∧ (u.fenced g 0x1F = true → (u.core g).mac.finder ≠ [] → Answers (.halt g) s (Stalls u g .finder))
      ∧ (u.fenced g 0x1F = false → Answers (.halt g) s (Stalls u g .haltFence))
      ∧ (u.liveWords g ≤ 24576 → u.fenced g 0x1F = true → Answers (.epoch g) s (fun t =>
          (t.core g).seq = .wait ∧ (t.core g).stall = some .epochCommit ∧ (t.core g).arrived = true
            ∧ (t.core g).pc = (u.core g).pc ∧ t.mem = u.mem))
      ∧ (24576 < u.liveWords g → Answers (.epoch g) s (SeqFaults u g 0x01 (encR 0x02 0#5 0#5 0#5) 0#64))

/-- R98, R99, R129: CSRR reads the register shown at a legal offset, with no side effect, and an offset with no register
reads as zero; a CSRW of LIVE0 stores its START and LEN, and one to an offset with no register is discarded; an illegal offset
faults. -/
def Obligations.CoreRegisterAccess : Prop :=
  ∀ (s : State) (g : Nat) (a b : BitVec 5) (imm : W32), CanIssue s g →
    let u := fetched s g
    let off := imm.toNat
    (off < 0x1000 → off % 8 = 0 →
      Answers (.csrr g a imm) s (Writes u g a (u.coreView g off))
        ∧ (findReg coreRegs off = none → Answers (.csrr g a imm) s (Writes u g a 0#64)
          ∧ Answers (.csrw g b imm) s (Goes u g ((u.core g).pc + 1))))
    ∧ Answers (.csrw g b 0x488#32) s (fun t => t.fld (corePage g) (LIVE_LEN 0) = bits ((u.core g).reg b.toNat) 45 28
        ∧ t.fld (corePage g) (LIVE_START 0) = bits ((u.core g).reg b.toNat) 63 46 ∧ (t.core g).pc = (u.core g).pc + 1 ∧ t.mem = u.mem)
    ∧ (0x1000 ≤ off ∨ off % 8 ≠ 0 →
        Answers (.csrr g a imm) s (SeqFaults u g 0x01 (encI 0x70 a 0#5 imm) 0#64)
          ∧ Answers (.csrw g b imm) s (SeqFaults u g 0x01 (encI 0x71 0#5 b imm) 0#64))

/-- R95, R192: the fetch and its corrections change no byte of a scratchpad or of HBM, and no core's registers, counters or PC;
a fetch that the instruction buffer serves, or that meets no correctable granule, changes the instruction buffer alone, which
then holds the instruction and never more than 256. -/
def FetchKeepsProgramStateRule : Prop :=
  ∀ (s : State) (g : Nat),
    KeepsPanelBytes s (fetched s g)
      ∧ (Memory.wf s.mem = true → Memory.wf (fetched s g).mem = true)
      ∧ (∀ h, ((fetched s g).core h).c = (s.core h).c ∧ ((fetched s g).core h).k = (s.core h).k
          ∧ ((fetched s g).core h).pc = (s.core h).pc)
      ∧ ((fetched s g).core g).pc ∈ ((fetched s g).core g).ibuf ∧ ((fetched s g).core g).ibuf.length ≤ 256
      ∧ ((s.core g).pc ∈ (s.core g).ibuf ∨ s.weakAt (spBase g + 8 * (s.core g).pc) 8 8 = [] →
          fetched s g = { s with cores := (fetched s g).cores }
            ∧ (∀ h, h ≠ g → (fetched s g).core h = s.core h)
            ∧ (fetched s g).core g = { s.core g with ibuf := ((fetched s g).core g).ibuf })

/-- R102, R103: ISSUE copies the 32 bytes of the descriptor at word c[B] + sext(IMM) to the end of the engine's queue with
the PC and the word that issued it; an issue to a full queue stalls. -/
def DescriptorIssueRule : Prop :=
  ∀ (s : State) (g : Nat) (b : BitVec 5) (imm : W32), CanIssue s g →
    let u := fetched s g
    let word := ((u.core g).reg b.toNat + imm.signExtend 64).toNat
    let w := u.correctAll g (32 * word) 32 1
    let lane := fun i => BitVec.ofNat 64 (memRead u.mem (spBase g + 32 * word + 8 * i) 8)
    let e := fun op => (⟨⟨lane 0, lane 1, lane 2, lane 3⟩, (u.core g).pc, encI op 0#5 b imm, word⟩ : QEntry)
    let c := w.core g
    (32 * word + 32 ≤ 6291456 → u.owns g 0 (32 * word) 32 = true → u.spPoison g (32 * word) 32 = none →
      ((u.core g).mac.q.length ≤ u.fld (corePage g) MAC_CFG_QDEPTH → Answers (.issueMac g b imm) s (fun t => Retires w t g
        ∧ t.core g = { c with mac := { c.mac with q := c.mac.q ++ [e 0x50] }, pc := c.pc + 1 }))
      ∧ ((u.core g).edge.q.length ≤ u.fld (corePage g) EDGE_CFG_QDEPTH → Answers (.issueEdge g b imm) s (fun t => Retires w t g
        ∧ t.core g = { c with edge := { c.edge with q := c.edge.q ++ [e 0x51] }, pc := c.pc + 1 }))
      ∧ ((u.core g).dmaQ ≤ u.fld (corePage g) SEQ_CFG_DMA_QDEPTH → Answers (.issueDma g b imm) s (fun t => Retires w t g
        ∧ t.core g = { c with dma := { c.dma with q := c.dma.q ++ [e 0x52] }, pc := c.pc + 1 })))
    ∧ (u.fld (corePage g) MAC_CFG_QDEPTH < (u.core g).mac.q.length →
        Answers (.issueMac g b imm) s (Stalls u g (.queueFull 1 (encI 0x50 0#5 b imm))))

/-- R114, R217: SIGNAL sends one packet that carries the counter's number to the core map's die and slot of logical core
c[B], is counted in UNACKED, and retires; a c[B] at or above NCORES is illegal; with RELEASE it stalls while writes of the
core are due. -/
def Obligations.SignalSends : Prop :=
  ∀ (s : State) (g : Nat) (b : BitVec 5) (x : BitVec 9) (imm : W32), CanIssue s g → x.toNat < 16 → imm.toNat < 2 →
    let u := fetched s g
    let l := ((u.core g).reg b.toNat).toNat
    let w := encInsn 0x63 0#5 b 0#5 x imm
    (u.nCores g ≤ l → Answers (.signal g b x imm) s (SeqFaults u g 0x01 w 0#64))
      ∧ (l < u.nCores g → imm = 1#32 → u.writesDue g = true → Answers (.signal g b x imm) s (Stalls u g (.release w)))
      ∧ (l < u.nCores g → imm = 0#32 ∨ u.writesDue g = false → u.dest g (lcoreAddr l) = none →
          Answers (.signal g b x imm) s (SeqFaults u g 0x20 w (lcoreAddr l)))
      ∧ ∀ d tag, l < u.nCores g → imm = 0#32 ∨ u.writesDue g = false → u.dest g (lcoreAddr l) = some d →
          u.freeTag (dieOfSite g) (g % 16) = some tag → u.injCount (dieOfSite g) + 1 ≤ 64 →
          Answers (.signal g b x imm) s (fun t =>
            (∃ p ∈ t.fab.packets, p.h.type = 8 ∧ p.h.drouter = d.router ∧ p.h.dep = d.dep ∧ p.h.arg = x.setWidth 36
              ∧ p.h.tag = tag ∧ p.h.part = u.winPart g ∧ p.loc = .injq (dieOfSite g))
            ∧ t.unacked g = u.unacked g + 1 ∧ (t.core g).pc = (u.core g).pc + 1 ∧ t.mem = u.mem)

/-- R97, R99: a word whose opcode is reserved, or a NOP, HALT or EPOCH with any unused field not zero, is an illegal
instruction: the core faults with the word in FAULT_REC. -/
def ReservedWordsFaultRule : Prop :=
  ∀ (s : State) (g : Nat) (w : W64), CanIssue s g →
    let op := bits w 63 56
    ((0x04 ≤ op ∧ op ≤ 0x0F) ∨ (0x2C ≤ op ∧ op ≤ 0x2F) ∨ (0x38 ≤ op ∧ op ≤ 0x3F) ∨ (0x42 ≤ op ∧ op ≤ 0x4F)
      ∨ (0x53 ≤ op ∧ op ≤ 0x5F) ∨ (0x64 ≤ op ∧ op ≤ 0x6F) ∨ (0x72 ≤ op ∧ op ≤ 0xBF)
      ∨ (op ≤ 0x02 ∧ bits w 55 0 ≠ 0)) →
    Answers (.reservedOpcode g w) s (SeqFaults (fetched s g) g 0x01 w 0#64)

/-- R192, R97, R99: `FetchKeepsProgramStateRule` and `ReservedWordsFaultRule`. -/
def Obligations.FetchAndReservedWords : Prop := FetchKeepsProgramStateRule ∧ ReservedWordsFaultRule

/-- R97, R102, R138: a vector instruction goes to the end of the vector queue and retires; to a full queue it stalls. -/
def VectorIssueQueuesRule : Prop :=
  ∀ (s : State) (g : Nat) (w : W64), CanIssue s g → 0xC0 ≤ bits w 63 56 →
    let u := fetched s g
    ((u.core g).vec.pending ≤ u.fld (corePage g) VEC_CFG_QDEPTH → Answers (.vectorIssue g w) s (fun t =>
        (∃ e, (t.core g).vec.q = (u.core g).vec.q ++ [e] ∧ e.w = w ∧ e.pc = (u.core g).pc)
          ∧ (t.core g).pc = (u.core g).pc + 1 ∧ (t.core g).c = (u.core g).c ∧ t.mem = u.mem))
      ∧ (u.fld (corePage g) VEC_CFG_QDEPTH < (u.core g).vec.pending →
          Answers (.vectorIssue g w) s (Stalls u g (.queueFull 2 w)))

/-- R102, R103, R97, R138: `DescriptorIssueRule` and `VectorIssueQueuesRule`. -/
def Obligations.EngineIssue : Prop := DescriptorIssueRule ∧ VectorIssueQueuesRule

/-- R122, R123, R131: START and RSTART take a core that is IDLE, HALTED or FAULTED to RUN with FAULT_REC, FAULT and
FAULTS_LOST clear and the generators reseeded from the seeds in effect; START zeroes the registers and counters, loads
c1–c4 from the launch parameters, sets EPOCH to 0 and the PC to ENTRY; RSTART leaves registers and counters and takes EPOCH
and PC from RESTORE_EPOCH and RESTORE_PC. In any other state neither does anything but restart the row's clock (R340). -/
def SequencerStartsRule : Prop :=
  ∀ (s : State) (g : Nat), siteOk g = true →
    let q := (s.core g).seq
    let bp := corePage g
    let begun := fun (t : State) => (t.core g).seq = .run ∧ (t.core g).stall = none
      ∧ t.flag bp SEQ_STATUS_FAULT = false ∧ t.fld bp SEQ_STATUS_FAULTS_LOST = 0 ∧ (∀ i, i < 4 → t.fld bp (FAULT_REC_W i) = 0)
      ∧ (t.core g).mac.gen = seedOf (BitVec.ofNat 64 (t.fld bp MAC_SEED_W))
      ∧ (t.core g).mac.findGen = seedOf (BitVec.ofNat 64 (t.fld bp FINDER_SEED_W))
      ∧ (t.core g).vec.gen = seedOf (BitVec.ofNat 64 (t.fld bp VEC_SEED_W))
      ∧ (t.core g).edge.gen = seedOf (BitVec.ofNat 64 (t.fld bp EDGE_SEED_W))
      ∧ t.mem = s.mem ∧ ∀ h, h ≠ g → t.core h = s.core h
    let l := (s.core g).launch
    ((q = .idle ∨ q = .halted ∨ q = .faulted) →
      Answers (.seqStart g) s (fun t => begun t
        ∧ (∀ i, (t.core g).reg i = if i = 1 then l.w0 else if i = 2 then l.w1 else if i = 3 then l.w2 else
            if i = 4 then l.w3 else 0#64)
        ∧ (∀ j, (t.core g).kVal j = 0#16) ∧ t.fld bp EPOCH_REG_W = 0 ∧ (t.core g).pc = t.fld bp SEQ_CFG_ENTRY)
      ∧ Answers (.seqRstart g) s (fun t => begun t ∧ (t.core g).c = (s.core g).c ∧ (t.core g).k = (s.core g).k
        ∧ t.fld bp EPOCH_REG_W = t.fld bp RESTORE_EPOCH_W ∧ (t.core g).pc = t.fld bp RESTORE_PC_W))
    ∧ ((q = .run ∨ q = .wait ∨ q = .frozen) → exec (.seqStart g) s = .next (s.siteWake g)
        ∧ exec (.seqRstart g) s = .next (s.siteWake g))

/-- R122, R124, R131: STOP freezes a core in RUN or WAIT and RESUME takes a FROZEN one back to the state it was frozen from,
changing nothing else of the panel but that the row's clock restarts (R340); elsewhere they do no more. The recovery clear takes FROZEN and FAULTED to IDLE, with
the queues, the Finder's work, the fault record and UNACKED cleared and registers, counters and memory kept. A core reset
gives, from any state, the reset core and page with the map table that the Almanac holds (R207) and, in a die in PROBATION,
FINDER_CFG.PROBATION set (R31, R77); where that table is the one in force no byte of memory changes. -/
def SequencerStopsAndClearsRule : Prop :=
  ∀ (s : State) (g : Nat), siteOk g = true →
    let c := s.core g
    let but := fun (t : State) => t = { s.siteWake g with cores := t.cores } ∧ ∀ h, h ≠ g → t.core h = s.core h
    ((c.seq = .run ∨ c.seq = .wait) → Answers (.seqStop g) s (fun t => but t
        ∧ t.core g = { c with seq := .frozen, frozenFrom := c.seq }))
      ∧ (c.seq = .frozen → Answers (.seqResume g) s (fun t => but t ∧ t.core g = { c with seq := c.frozenFrom }))
      ∧ (c.seq ≠ .run → c.seq ≠ .wait → Answers (.seqStop g) s (fun t => but t ∧ t.core g = c))
      ∧ (c.seq ≠ .frozen → Answers (.seqResume g) s (fun t => but t ∧ t.core g = c))
      ∧ ((c.seq = .frozen ∨ c.seq = .faulted) → Answers (.recoveryClear g) s (fun t =>
          (t.core g).seq = .idle ∧ (t.core g).c = c.c ∧ (t.core g).k = c.k ∧ (t.core g).vec.t = c.vec.t
            ∧ (t.core g).mac.q = [] ∧ (t.core g).mac.finder = [] ∧ (t.core g).vec.q = [] ∧ (t.core g).edge.q = []
            ∧ (t.core g).dma.q = [] ∧ t.unacked g = 0 ∧ t.flag (corePage g) SEQ_STATUS_FAULT = false
            ∧ (∀ i, i < 4 → t.fld (corePage g) (FAULT_REC_W i) = 0) ∧ t.mem = s.mem))
      ∧ Answers (.coreReset g) s (fun t =>
          t.core g = { Core.reset with sp := { Core.reset.sp with maps := s.almMaps g } } ∧ t.unacked g = 0
          ∧ (s.almMaps g = c.sp.maps → t.mem = s.mem)
          ∧ t.flag (corePage g) FINDER_CFG_PROBATION = (s.dieState (dieOfSite g) == dieProbation)
          ∧ ∀ off d, off < 0x1000 → off ≠ 0x428 → off ≠ 0x120 → t.reg (corePage g + off) d = BitVec.ofNat 64 d)

/-- R122, R123, R131, R124: `SequencerStartsRule` and `SequencerStopsAndClearsRule`. -/
def Obligations.SequencerStates : Prop := SequencerStartsRule ∧ SequencerStopsAndClearsRule

/-- R102, R113, R117, R122: a stall ends when what it waits for has come: the instruction retires and the core runs
on; HALT ends in HALTED and EPOCH goes on to wait for the commit; a stall whose condition does not hold goes on. -/
def StallsEndRule : Prop :=
  ∀ (s : State) (g : Nat), siteOk g = true → (s.core g).seq = .wait →
    let c := s.core g
    let go := fun (t : State) => Retires s t g ∧ t.core g = { c with seq := .run, stall := none, pc := c.pc + 1 }
    (∀ k v, c.stall = some (.counter k v) → v ≤ (c.kVal k).toNat → Answers (.seqStallEnd g) s go)
      ∧ (∀ k v, c.stall = some (.counter k v) → (c.kVal k).toNat < v → exec (.seqStallEnd g) s = .next s)
      ∧ (c.stall = some .haltFence → s.fenced g 0x1F = true → c.mac.finder = [] → Answers (.seqStallEnd g) s (fun t =>
          Retires s t g ∧ (t.core g).seq = .halted))
      ∧ (c.stall = some .finder → c.mac.finder = [] → Answers (.seqStallEnd g) s (fun t =>
          Retires s t g ∧ (t.core g).seq = .halted))
      ∧ (c.stall = some .epochFence → s.fenced g 0x1F = true → Answers (.seqStallEnd g) s (fun t =>
          (t.core g).stall = some .epochCommit ∧ (t.core g).arrived = true ∧ t.mem = s.mem))

/-- R117, R118, R102, R113, R122: `HaltAndEpochRule` and `StallsEndRule`. -/
def Obligations.StallsHaltAndEpoch : Prop := HaltAndEpochRule ∧ StallsEndRule

/-! ## The MAC array and the Finder -/

/-- Site g exists and its engines run (R121, R124). -/
def EnginesRun (s : State) (g : Nat) : Prop := siteOk g = true ∧ (s.core g).enginesRun = true

/-- Between s and t nothing differs but the MAC array of site g. -/
def OnlyMac (s t : State) (g : Nat) : Prop :=
  t = { s with cores := t.cores } ∧ (∀ h, h ≠ g → t.core h = s.core h)
    ∧ t.core g = { s.core g with mac := (t.core g).mac }

/-- Between s and t the registers, counters and sequencer of site g are the same, and no byte of the panel differs. -/
def KeepsProgram (s t : State) (g : Nat) : Prop :=
  (t.core g).c = (s.core g).c ∧ (t.core g).k = (s.core g).k ∧ (t.core g).pc = (s.core g).pc ∧ (t.core g).seq = (s.core g).seq
    ∧ KeepsPanelBytes s t

/-- An engine's fault (R125, R126): the core is FAULTED with its queues discarded, and FAULT_REC names kind and engine. -/
def EngineFaults (g kind engine : Nat) (t : State) : Prop :=
  (t.core g).seq = .faulted ∧ (t.core g).mac.q = [] ∧ (t.core g).vec.q = [] ∧ (t.core g).edge.q = [] ∧ (t.core g).dma.q = []
    ∧ bits (t.reg (corePage g + 0x468) 0) 63 56 = kind ∧ bits (t.reg (corePage g + 0x468) 0) 55 52 = engine
    ∧ t.flag (corePage g) SEQ_STATUS_FAULT = true

/-- Unit own of site g can read [a, a+n): the bytes lie in the scratchpad, in banks the unit owns (R193), and no granule of
them is uncorrectable (R191). -/
def Readable (s : State) (g own a n : Nat) : Prop :=
  n = 0 ∨ a + n ≤ 6291456 ∧ s.owns g own a n = true ∧ s.spPoison g a n = none

/-- Unit own of site g can write [a, a+n). -/
def Writable (s : State) (g own a n : Nat) : Prop := n = 0 ∨ a + n ≤ 6291456 ∧ s.owns g own a n = true

/-- R58: what a MAC descriptor must meet when the array takes it from its queue. -/
def MacDescOk (s : State) (g : Nat) (d : Quad) : Prop :=
  mdReservedZero d = true ∧ (mdCls d).isSome = true
    ∧ (mdReadout d = true → mdOfmt d ∈ [0, 1, 2, 3, 4, 11, 12, 13] ∧ 1 ≤ mdNused d ∧ mdNused d ≤ mdN d
        ∧ mdOdst d + outSize d ≤ 6291456)
    ∧ 1 ≤ mdM d ∧ mdM d ≤ clsMmax (mdClass d)
    ∧ (mdWload d = false → ∃ b, (s.mac g).wbuf (mdWbuf d) = some b ∧ b.fmt = mdWfmt d ∧ b.cls = mdClass d)
    ∧ (mdWload d = true → mdWsrc d + wSize (mdWfmt d) (mdK d) (mdN d) ≤ 6291456)
    ∧ (mdClear d = false → ∀ k, (s.mac g).accN = some k → k = mdN d)
    ∧ mdAsrc d + actSize d ≤ 6291456
    ∧ (mdDrift d = true → mdShadow d + wSize fmE4M3 (mdK d) (mdN d) ≤ 6291456)

/-- R58, R59, R85: the descriptor at the head of the MAC queue leaves it, once the run before it has begun to stream, and is
checked then: a good one becomes a run before its first row, waiting for its pre-scan when it may be promoted on an input-side
event; the weights of a WLOAD are loaded at once where no run before it uses the buffer and none has writes outstanding in the
image; a descriptor with a reserved field set faults the core as illegal. -/
def MacQueueLeavesRule : Prop :=
  ∀ (s : State) (g : Nat) (e : QEntry) (rest : List QEntry), EnginesRun s g → (s.mac g).mayLeave = true →
    (s.mac g).q = e :: rest →
    let d := e.d
    let n := wSize (mdWfmt d) (mdK d) (mdN d)
    let loads := mdWload d = true ∧ mayLoad (s.mac g).runs d = true
    (MacDescOk s g e.d → (loads → Readable s g 1 (mdWsrc d) n) → Answers (.macDescLeaveQueue g) s (fun t =>
        KeepsProgram s t g ∧ (¬loads → OnlyMac s t g ∧ (t.mac g).wbuf0 = (s.mac g).wbuf0 ∧ (t.mac g).wbuf1 = (s.mac g).wbuf1)
        ∧ (loads → (t.mac g).wbuf (mdWbuf d) = some (loadTile (mdWfmt d) (mdClass d) (memRead s.mem (spBase g + mdWsrc d) n)))
        ∧ (t.mac g).q = rest ∧ (t.mac g).acc = (s.mac g).acc
        ∧ ∃ r, (t.mac g).runs = (s.mac g).runs ++ [r] ∧ r.q = e ∧ r.row = 0 ∧ r.steps = 0 ∧ r.cls = mdClass e.d
          ∧ (r.loaded = true ↔ mdWload d = false ∨ mayLoad (s.mac g).runs d = true) ∧ r.begun = false
          ∧ (r.phase = .scan ∨ r.phase = .ready)
          ∧ (r.phase = .scan ↔ mdPromote e.d = true ∧ mdEntry e.d = true ∧ mdClass e.d ≠ 0
              ∧ ∃ k ∈ [0, 1, 3, 4], s.pwAction g (mdTset e.d) k = 2)))
      ∧ (mdReservedZero e.d = false → Answers (.macDescLeaveQueue g) s (EngineFaults g 0x01 1))

/-- The bytes of block j of activation row m can be read (R43, R45): 32 source values of an entry descriptor, else the
block's elements and its scale code. -/
def BlockReadable (s : State) (g : Nat) (d : Quad) (fmt m j : Nat) : Prop :=
  if mdEntry d = true then Readable s g 1 (mdAsrc d + (m * mdK d + 32 * j) * 2) 64
  else Readable s g 1 (mdAsrc d + 32 * m + 32 * j * fmWidth fmt / 8) (4 * fmWidth fmt)
    ∧ Readable s g 1 (mdAsrc d + 32 * mdM d + m * (mdK d / 32) + j) 1

/-- R59, R82, R85: the pre-scan of a run whose activations can be read, and are not still to be written by a run before it,
takes its counts and gives the run its next class: one rung up when a promote action fires and PROMO_MAX allows a step, else the
class it has. No byte of the panel and no register of the program change. -/
def PrescanPromotesRule : Prop :=
  ∀ (s : State) (g : Nat) (r : MacRun), EnginesRun s g → (s.mac g).runs.find? (fun x => x.phase == .scan) = some r →
    (s.mac g).mayRead r = true →
    let t0 := mdTset r.q.d
    ((∀ m j, m < mdM r.q.d → j < mdK r.q.d / 32 → BlockReadable s g r.q.d r.actFmt m j) →
      Answers (.macPrescanDone g) s (fun t => KeepsProgram s t g ∧
        ∃ b ∈ (t.mac g).runs, b.id = r.id ∧ b.q = r.q ∧ b.cnt = []
          ∧ (b.cls = r.cls ∧ b.steps = r.steps ∧ b.phase = .ready
            ∨ b.cls = r.cls - 1 ∧ b.steps = r.steps + 1 ∧ (∃ k ∈ [0, 1, 3, 4], s.pwAction g t0 k = 2))))
    ∧ ∀ a u, (macScan (r.work g) r).run s = .ok (a, u) →
      let fires := fun k => u.pwFires g t0 k (a.cnt.getD k 0) = true ∧ u.pwAction g t0 k = 2
      Answers (.macPrescanDone g) s (fun t => KeepsProgram s t g ∧
        ∃ b ∈ (t.mac g).runs, b.id = r.id ∧ b.q = r.q ∧ b.cnt = []
          ∧ ((∃ k ∈ [0, 1, 3, 4], fires k) → a.steps < u.fld (corePage g) PW_CFG_PROMO_MAX →
              b.cls = r.cls - 1 ∧ b.steps = r.steps + 1)
          ∧ ((∀ k ∈ [0, 1, 3, 4], ¬fires k) → b.cls = r.cls ∧ b.steps = r.steps ∧ b.phase = .ready))

/-- R44, R59, R61, R70, R84: the first ready run begins to stream once the runs before it allow: CLEAR empties the accumulator
file, the weight tile of a WLOAD that was not loaded before is read from its bytes into the buffer named, and the row count starts
at 0. A run whose weights are loaded, a rerun among them, loads none. -/
def MacStreamStartsRule : Prop :=
  ∀ (s : State) (g : Nat) (r : MacRun), EnginesRun s g → (s.mac g).runs.find? (fun x => x.phase == .ready) = some r →
    (s.mac g).mayStream r = true →
    let d := r.q.d
    let n := wSize (mdWfmt d) (mdK d) (mdN d)
    let runs := fun (t : State) => ∃ b ∈ (t.mac g).runs, b.id = r.id ∧ b.q = r.q ∧ b.cls = r.cls ∧ b.phase = .stream ∧ b.row = 0
      ∧ b.loaded = true ∧ b.begun = true
    (r.loaded = true → Answers (.macStreamStart g) s (fun t => OnlyMac s t g ∧ runs t
        ∧ (t.mac g).wbuf0 = (s.mac g).wbuf0 ∧ (t.mac g).wbuf1 = (s.mac g).wbuf1
        ∧ (t.mac g).acc = (if mdClear d = true then [] else (s.mac g).acc)))
      ∧ (r.loaded = false → Readable s g 1 (mdWsrc d) n → Answers (.macStreamStart g) s (fun t => KeepsProgram s t g ∧ runs t
            ∧ (t.mac g).wbuf (mdWbuf d) = some (loadTile (mdWfmt d) (mdClass d) (memRead s.mem (spBase g + mdWsrc d) n))
            ∧ (t.mac g).acc = (if mdClear d = true then [] else (s.mac g).acc)))

/-- R65: a tile that is loaded holds, for every weight element, the residue modulo 7 of the element's significand, or of its
catalogue value. -/
def LoadedTileHoldsResiduesRule : Prop :=
  ∀ (fmt cls img k n : Nat), k < clsK cls → n < clsN cls →
    (loadTile fmt cls img).elemRes k n = (((loadTile fmt cls img).q k n).m % 7).toNat

/-- R44, R58, R59, R61, R65, R70, R82, R84, R85: `MacQueueLeavesRule`, `PrescanPromotesRule`, `MacStreamStartsRule` and
`LoadedTileHoldsResiduesRule`. -/
def Obligations.MacDescriptorsStart : Prop :=
  MacQueueLeavesRule ∧ PrescanPromotesRule ∧ MacStreamStartsRule ∧ LoadedTileHoldsResiduesRule

/-- What the next row of a run needs to land: it is one of the run's rows (R84), its blocks can be read, so can the shadow tile
where drift samples are drawn (R79), and the halo queue has room for what the row sends to it (R55). -/
def RowLands (s : State) (g : Nat) (r : MacRun) : Prop :=
  let d := r.q.d
  let jn := clsK r.cls / 32
  let kp := r.row / mdM d / max 1 r.nparts
  r.row < r.rows
    ∧ (∀ i, i < jn → BlockReadable s g d r.actFmt (r.row % mdM d) (kp * jn + i))
    ∧ ((r.drifts = [] ∧ r.dpicks = []) ∨ Readable s g 1 (mdShadow d) (wSize fmE4M3 (mdK d) (mdN d)))
    ∧ (mdHalo d = true → mdEntry d = true → (s.mac g).halo.length + 2 * jn ≤ 64)

/-- Between s and t, the next row of run r has landed (R47): only accumulators of its columns in its row of the tile differ, the
run is due its next row, and after its last it has landed. -/
def RowLanded (s t : State) (g : Nat) (r : MacRun) : Prop :=
  let lo := r.row % mdM r.q.d * mdN r.q.d + r.row / mdM r.q.d % max 1 r.nparts * clsN r.cls
  KeepsProgram s t g
    ∧ (∀ i, i < lo ∨ lo + clsN r.cls ≤ i → (t.mac g).acc.getD i 0#32 = (s.mac g).acc.getD i 0#32)
    ∧ ∀ b ∈ (t.mac g).runs, b.id = r.id → b.row = r.row + 1 ∧ b.replay = false
        ∧ b.phase = (if r.row + 1 = r.rows then .landed else .stream)

/-- The comparison that an upset or a test touches fails (R65, R66): the residue of the block sum with its error is not the
residue sum of the column, whose lowest bit a test inverts. -/
def ComparisonFails (s : State) (g : Nat) (buf : WBuf) (a : ActBlock) (c j : Nat) (x : Int) : Prop :=
  let want := columnResidue buf a.qs j c
  (if (s.mac g).injRes = true then want ^^^ 1 else want) ≠ residue7 ((blockSum buf a.qs j c).add ⟨x, -32⟩)

/-- R47, R66–R68: a row whose comparisons pass lands. A failed comparison makes the same row due again, with no accumulator
changed. A parity error faults the core and is counted. -/
def MacRowLandsRule : Prop :=
  ∀ (s : State) (g : Nat) (e : MacUpset) (r : MacRun) (buf : WBuf), siteOk g = true →
    s.macStreaming g false = some (r, buf) →
    (e = .parity → Answers (.macRowLand g e) s (fun t => EngineFaults g 0x11 1 t))
      ∧ (e ≠ .parity → RowLands s g r → macSuspect (s.mac g) r e = none → Answers (.macRowLand g e) s (fun t => RowLanded s t g r))
      ∧ ∀ c j x a u, e ≠ .parity → macSuspect (s.mac g) r e = some (c, j, x) →
          (actBlock (r.work g) r.q.d r.actFmt (r.row % mdM r.q.d) j).run s = .ok (a, u) →
          (ComparisonFails s g buf a c j x → Answers (.macRowLand g e) s (fun t => KeepsProgram s t g
            ∧ (t.mac g).acc = (s.mac g).acc ∧ (t.mac g).injRes = false
            ∧ ∀ b ∈ (t.mac g).runs, b.id = r.id → b.row = r.row ∧ b.replay = true))
          ∧ (¬ComparisonFails s g buf a c j x → RowLands s g r → Answers (.macRowLand g e) s (fun t => RowLanded s t g r))

/-- R67: at the replay a row that passes is a corrected error, counted in REPLAYED, and lands; one that fails again is counted
in FAILED and faults the core RESIDUE. -/
def ResidueReplaysRule : Prop :=
  ∀ (s : State) (g : Nat) (e : MacUpset) (r : MacRun) (buf : WBuf), siteOk g = true →
    s.macStreaming g true = some (r, buf) → e ≠ .parity →
    let lands := fun t => RowLanded s t g r
      ∧ t.fld (corePage g) RES_COUNT_REPLAYED = min (s.fld (corePage g) RES_COUNT_REPLAYED + 1) RES_COUNT_REPLAYED.max
    (RowLands s g r → macSuspect (s.mac g) r e = none → Answers (.residueReplayLand g e) s lands)
      ∧ ∀ c j x a u, macSuspect (s.mac g) r e = some (c, j, x) →
          (actBlock (r.work g) r.q.d r.actFmt (r.row % mdM r.q.d) j).run s = .ok (a, u) →
          (ComparisonFails s g buf a c j x → Answers (.residueReplayLand g e) s (fun t => EngineFaults g 0x10 1 t
            ∧ t.fld (corePage g) RES_COUNT_FAILED = min (s.fld (corePage g) RES_COUNT_FAILED + 1) RES_COUNT_FAILED.max))
          ∧ (¬ComparisonFails s g buf a c j x → RowLands s g r → Answers (.residueReplayLand g e) s lands)

/-- R47, R66–R68, R67: `MacRowLandsRule` and `ResidueReplaysRule`. -/
def Obligations.MacRowsAndReplays : Prop := MacRowLandsRule ∧ ResidueReplaysRule

/-- R54, R56, R79, R86: the halo unit finishes the element at the head of its queue: only accumulators of the element's row
change. Drift evaluation of a drained run whose shadow tile and tensor scales can be read either marks it evaluated or reruns it
one rung up from row 0, and changes no accumulator. -/
def HaloAndDriftRule : Prop :=
  ∀ (s : State) (g : Nat), EnginesRun s g →
    (∀ (e : MacUpset) h rest r, (s.mac g).halo = h :: rest → (s.mac g).runs.find? (fun x => x.id == h.run) = some r →
      e ≠ .parity → h.wq.length ≤ mdN r.q.d → Answers (.haloCorrection g e) s (fun t => OnlyMac s t g ∧ (t.mac g).halo = rest
        ∧ ∀ i, i / mdN r.q.d ≠ h.row → (t.mac g).acc.getD i 0#32 = (s.mac g).acc.getD i 0#32))
    ∧ (∀ r b, (s.mac g).runs.find? (fun x => (s.mac g).drained x && mdDrift x.q.d && !x.driftDone) = some r →
        (s.mac g).wbuf (mdWbuf r.q.d) = some b → Readable s g 1 (mdShadow r.q.d) (wSize fmE4M3 (mdK r.q.d) (mdN r.q.d)) →
        (∀ p ∈ r.drifts, Readable s g 1 (mdAsrc r.q.d + actTensor r.q.d + 2 * (p.e / mdN r.q.d)) 2) →
        Answers (.driftEvaluation g) s (fun t => KeepsProgram s t g ∧ (t.mac g).acc = (s.mac g).acc
          ∧ ∃ x ∈ (t.mac g).runs, x.id = r.id ∧ (x.driftDone = true ∧ x.cls = r.cls ∧ x.phase = .landed ∨
              (x.steps = r.steps + 1 ∧ x.cls = r.cls - 1 ∧ x.row = 0 ∧ x.phase = .ready))))

/-- R49–R52: a readout of the oldest run, its rows, halo corrections and drift done, whose tensor scales can be read and whose
output tile can be written, leaves the accumulator file as it is, marks the run read out and writes no byte outside the output
tile. -/
def ReadoutWritesItsTileRule : Prop :=
  ∀ (s : State) (g : Nat) (e : MacUpset) (r : MacRun) (rest : List MacRun) (b : WBuf), EnginesRun s g →
    Memory.wf s.mem = true → (s.mac g).runs = r :: rest → (s.mac g).drained r = true → mdReadout r.q.d = true →
    (mdDrift r.q.d = true → r.driftDone = true) → e ≠ .parity → (s.mac g).wbuf (mdWbuf r.q.d) = some b →
    (∀ m, m < mdM r.q.d → Readable s g 1 (mdAsrc r.q.d + actTensor r.q.d + 2 * m) 2) →
    Writable s g 1 (mdOdst r.q.d) (outSize r.q.d) →
    Answers (.macReadout g e) s (fun t => (t.mac g).acc = (s.mac g).acc ∧ (∃ x ∈ (t.mac g).runs, x.id = r.id ∧ x.phase = .read)
      ∧ ∀ z, z < 2 ^ 60 → z < spBase g + mdOdst r.q.d ∨ spBase g + mdOdst r.q.d + outSize r.q.d ≤ z →
          memGet t.mem z = memGet s.mem z)

/-- R60, R70, R104: a run that is done leaves the array, its samples become the Finder's work and KC advances by 1; at
65,535 the core faults KOVF. -/
def MacDescriptorCompletesRule : Prop :=
  ∀ (s : State) (g : Nat) (r : MacRun) (rest : List MacRun), EnginesRun s g → (s.mac g).runs = r :: rest →
    (if mdReadout r.q.d = true then r.phase = .read else (s.mac g).drained r = true ∧ (mdDrift r.q.d = true → r.driftDone = true)) →
    let k := (s.core g).kVal (mdKc r.q.d)
    (k ≠ 0xFFFF#16 → Answers (.macDescComplete g) s (fun t => (t.mac g).runs = rest
        ∧ (t.mac g).finder = (s.mac g).finder ++ r.jobs ∧ (t.core g).kVal (mdKc r.q.d) = k + 1#16
        ∧ (∀ j, j ≠ mdKc r.q.d → (t.core g).kVal j = (s.core g).kVal j) ∧ t.mem = s.mem))
      ∧ (k = 0xFFFF#16 → Answers (.macDescComplete g) s (EngineFaults g 0x04 1))

/-- R49–R52, R60, R70, R104: `ReadoutWritesItsTileRule` and `MacDescriptorCompletesRule`. -/
def Obligations.MacOutputAndCompletion : Prop := ReadoutWritesItsTileRule ∧ MacDescriptorCompletesRule

/-- R71–R75, R90, R91: the Finder takes the entry at the head of its work: a match is counted and nothing else comes of it; a
mismatch faults the core FINDER. PW_POP removes the oldest precision record. The injection commands act only while debug is
unlocked for them. -/
def FinderChecksRule : Prop :=
  ∀ (s : State) (g : Nat), siteOk g = true →
    (∀ e j rest, (s.core g).enginesRun = true → (s.mac g).finder = j :: rest → e ≠ .parity →
      (j.matches = true → j.outOk = true → (s.mac g).injFind = false → Answers (.finderCheck g e) s (fun t =>
          (t.mac g).finder = rest ∧ t.fld (corePage g) FINDER_SAMPLES_W = (s.fld (corePage g) FINDER_SAMPLES_W + 1) % 2 ^ 64
            ∧ (t.core g).seq = (s.core g).seq ∧ t.mem = s.mem))
      ∧ ((j.matches = false ∨ j.outOk = false ∨ (s.mac g).injFind = true) →
          Answers (.finderCheck g e) s (EngineFaults g 0x12 5)))
    ∧ Answers (.pwPop g) s (fun t => OnlyMac s t g ∧ t.mac g = { s.mac g with pw := (s.mac g).pw.tail })
    ∧ Answers (.injectResidue g) s (fun t => OnlyMac (s.siteWake g) t g ∧ t.mac g =
        (if s.boot.unlocked = true ∧ s.boot.scope / 2 % 2 = 1 then { s.mac g with injRes := true } else s.mac g))
    ∧ Answers (.injectFinder g) s (fun t => OnlyMac (s.siteWake g) t g ∧ t.mac g =
        (if s.boot.unlocked = true ∧ s.boot.scope / 2 % 2 = 1 then { s.mac g with injFind := true } else s.mac g))

/-- R54, R56, R79, R86, R71–R75, R90, R91: `HaloAndDriftRule` and `FinderChecksRule`. -/
def Obligations.HaloDriftAndFinder : Prop := HaloAndDriftRule ∧ FinderChecksRule

/-! ## The vector engine -/

/-- The queue once its entry i has finished one more repeat. -/
def vecDid (q : List VEntry) (i : Nat) (e : VEntry) : List VEntry := q.set i { e with reps := e.reps + 1 }

/-- The instructions that retire with that repeat: those at the head that have finished, in program order (R104, R158). -/
def vecRetired (q : List VEntry) (i : Nat) (e : VEntry) : List VEntry := (vecDid q i e).takeWhile (fun x => vREP x.w < x.reps)

/-- How many of the retired instructions advance counter j. -/
def vecCounted (q : List VEntry) (i : Nat) (e : VEntry) (j : Nat) : Nat :=
  ((vecRetired q i e).filter (fun x => vKEN x.w && vKC x.w == j)).length

/-- Entry i of a running core's vector queue is an instruction of opcode op and the one to run a repeat next (R158): the first
of that opcode that may start. Its first repeat finds it legal (R137), and no counter of what retires with it passes 65,535. -/
def VecTurn (s : State) (g op i : Nat) (e : VEntry) : Prop :=
  EnginesRun s g ∧ (s.vec g).nextFor op = some (i, e) ∧ wOp e.w = op ∧ (e.reps = 0 → vecLegal e.w = true)
    ∧ ∀ j, ((s.core g).kVal j).toNat + vecCounted (s.vec g).q i e j ≤ 65535

/-- Between s and t one repeat of entry i has been done: what has finished at the head has left the queue, and its counters have
advanced. -/
def VecDoes (s t : State) (g i : Nat) (e : VEntry) : Prop :=
  (t.vec g).q = (vecDid (s.vec g).q i e).drop (vecRetired (s.vec g).q i e).length
    ∧ ∀ j, ((t.core g).kVal j).toNat = ((s.core g).kVal j).toNat + vecCounted (s.vec g).q i e j

/-- Between s and t, one repeat of entry i has left v in the engine's registers, and nothing else of the panel differs but the
queue and the counters of what has retired. -/
def VecLeaves (s : State) (g i : Nat) (e : VEntry) (v : Vec) (t : State) : Prop :=
  t = { s with cores := t.cores } ∧ (∀ h, h ≠ g → t.core h = s.core h)
    ∧ t.core g = { s.core g with vec := { v with q := (t.vec g).q }, k := (t.core g).k } ∧ VecDoes s t g i e

/-- Between s and t, one repeat of entry i has been done; only tiles for which p holds differ, no mask register, no register of
the program, and no byte of the panel. -/
def VecTakes (s : State) (g i : Nat) (e : VEntry) (p : Nat → Prop) (t : State) : Prop :=
  VecDoes s t g i e ∧ (∀ i, ¬p i → (t.vec g).tile i = (s.vec g).tile i) ∧ (t.vec g).m = (s.vec g).m
    ∧ (t.core g).c = (s.core g).c ∧ (t.core g).seq = (s.core g).seq ∧ KeepsPanelBytes s t

/-- The destination tile of a repeat (R137). -/
def VecDst (e : VEntry) (i : Nat) : Prop := i = vTD e.w + e.reps

/-- R157, R158: an instruction at the head of the queue that has not finished is the one its row takes; so is the first one of
the other pipe behind it that depends on nothing before it, and one that does depend waits. -/
def VectorOrderRule : Prop :=
  ∀ (v : Vec) (e : VEntry) (rest : List VEntry), v.q = e :: rest → e.reps ≤ vREP e.w →
    v.nextFor (wOp e.w) = some (0, e)
      ∧ ∀ x more, rest = x :: more → x.reps ≤ vREP x.w → wOp x.w < 0xEE → wOp e.w < 0xEE → wOp x.w ≠ wOp e.w →
          (vecMemOp x.w ≠ vecMemOp e.w → vecWaitsFor x.w e.w = false → v.nextFor (wOp x.w) = some (1, x))
          ∧ (vecMemOp x.w = vecMemOp e.w ∨ vecWaitsFor x.w e.w = true → v.nextFor (wOp x.w) ≠ some (1, x))

/-- R137, R145: what a repeat of an element-wise instruction leaves in each element of its destination: the result where the mask
lets it write, the old code elsewhere; and no other tile changes. -/
def ElementwiseWritesItsDestinationRule : Prop :=
  ∀ (v : Vec) (w : W64) (i : Nat) (f : Nat → Nat → Nat → Nat → Nat), vTy w < 8 →
    let b := vtW (vTy w)
    (∀ n x y z, f n x y z < 2 ^ b) →
    (∀ k, k ≠ vTD w + i → (v.each w i f).tile k = v.tile k) ∧ (v.each w i f).m = v.m
      ∧ ∀ n, n < vtN (vTy w) → elemAt b ((v.each w i f).tile (vTD w + i)) n =
          if vOn w v n = true then f n (elemAt b (v.tile (vTA w + i)) n)
              (if vSCAL w = true then elemAt b (v.tile (vTB w)) 0 else elemAt b (v.tile (vTB w + i)) n)
              (elemAt b (v.tile (vTC w + i)) n)
          else elemAt b (v.tile (vTD w + i)) n

/-- R139, R141–R143: a repeat of VADD, VSUB, VMUL, VFMA, VDIV, VMIN, VMAX, VABS and VNEG computes each element exactly from the
values read and rounds once to the type; VMOV copies the codes. -/
def VectorArithmeticResultsRule : Prop :=
  ∀ (s : State) (g i : Nat) (e : VEntry),
    let ty := vTy e.w
    let run := fun (c : Instr) (op : Nat) (f : Dy → Dy → Dy → Dy) => VecTurn s g op i e →
      Answers c s (VecLeaves s g i e
        ((s.vec g).each e.w e.reps (fun _ x y z => vtEnc ty (f (vtDec ty x) (vtDec ty y) (vtDec ty z)) .rne)))
    run (.vadd g) 0xC8 (fun x y _ => x.add y) ∧ run (.vsub g) 0xC9 (fun x y _ => x.sub y)
      ∧ run (.vmul g) 0xCA (fun x y _ => x.mul y) ∧ run (.vfma g) 0xCB (fun x y z => (x.mul y).add z)
      ∧ run (.vdiv g) 0xCC (fun x y _ => vtDiv ty x y)
      ∧ run (.vmin g) 0xCD (fun x y _ => Dy.minD x y) ∧ run (.vmax g) 0xCE (fun x y _ => Dy.maxD x y)
      ∧ run (.vabs g) 0xCF (fun x _ _ => x.abs) ∧ run (.vneg g) 0xD0 (fun x _ _ => x.neg)
      ∧ (VecTurn s g 0xC7 i e → Answers (.vmov g) s (VecLeaves s g i e ((s.vec g).each e.w e.reps (fun _ x _ _ => x))))

/-- R143, R144: the square root is rounded once and is zero of a value that is not positive; the others are within their
bound of the exact value, with VRCP and VRSQRT of zero the largest value, VRSQRT and VLOG of a negative value zero, and VLOG
of zero the most negative value. -/
def VectorFunctionResultsRule : Prop :=
  (∀ (s : State) (g i : Nat) (e : VEntry),
    let run := fun (c : Instr) (op : Nat) => VecTurn s g op i e →
      Answers c s (VecLeaves s g i e ((s.vec g).each e.w e.reps (fun _ x _ _ => vtFun op (vTy e.w) x)))
    run (.vsqrt g) 0xD1 ∧ run (.vrcp g) 0xD2 ∧ run (.vrsqrt g) 0xD3 ∧ run (.vexp g) 0xD4 ∧ run (.vlog g) 0xD5
      ∧ run (.vtanh g) 0xD6 ∧ run (.vsig g) 0xD7 ∧ run (.vgelu g) 0xD8)
  ∧ ∀ ty code,
    let x := vtDec ty code
    (x.m ≤ 0 → vtFun 0xD1 ty code = 0) ∧ (0 < x.m → vtFun 0xD1 ty code = vtEnc ty x.root .rne)
      ∧ (x.m = 0 → vtFun 0xD2 ty code = vtEnc ty (vtMax ty) .rne ∧ vtFun 0xD3 ty code = vtEnc ty (vtMax ty) .rne
          ∧ vtFun 0xD5 ty code = vtEnc ty (vtMin ty) .rne)
      ∧ (x.m < 0 → vtFun 0xD3 ty code = 0 ∧ vtFun 0xD5 ty code = 0)

/-- R139, R143: logic and shifts on the codes: a count at or above the width gives zero, or the sign for VSRA. -/
def VectorLogicResultsRule : Prop :=
  ∀ (s : State) (g i : Nat) (e : VEntry),
    let b := vtW (vTy e.w)
    let run := fun (c : Instr) (op : Nat) (f : Nat → Nat → Nat) => VecTurn s g op i e →
      Answers c s (VecLeaves s g i e ((s.vec g).each e.w e.reps (fun _ x y _ => f x y)))
    run (.vand g) 0xDB (fun x y => x &&& y) ∧ run (.vor g) 0xDC (fun x y => x ||| y) ∧ run (.vxor g) 0xDD (fun x y => x ^^^ y)
      ∧ run (.vnot g) 0xDE (fun x _ => 2 ^ b - 1 - x)
      ∧ run (.vshl g) 0xDF (fun x y => if b ≤ y then 0 else x * 2 ^ y % 2 ^ b)
      ∧ run (.vshr g) 0xE0 (fun x y => if b ≤ y then 0 else x / 2 ^ y)
      ∧ run (.vsra g) 0xE1 (fun x y => ((if b ≤ y then (if sgn x b < 0 then -1 else 0) else sgn x b / 2 ^ y) % 2 ^ b).toNat)

/-- R139, R141–R143, R143, R144: `VectorArithmeticResultsRule` and `VectorFunctionResultsRule` and `VectorLogicResultsRule`. -/
def Obligations.VectorResults : Prop := VectorArithmeticResultsRule ∧ VectorFunctionResultsRule ∧ VectorLogicResultsRule

/-- R134, R139, R145: VCMP writes a mask bit for each element the mask lets it write; VMOP the bits below the element count;
VSEL takes each element from one of its sources by the mask; VIOTA writes element numbers. -/
def VectorMaskResultsRule : Prop :=
  ∀ (s : State) (g i : Nat) (e : VEntry),
    let w := e.w
    let ty := vTy w
    let v := s.vec g
    let others := fun (t : State) => VecLeaves s g i e { v with m := (t.vec g).m } t
      ∧ (∀ k, k ≠ vTD w → (t.vec g).mask k = v.mask k)
      ∧ ∀ n, vtN ty ≤ n → ((t.vec g).mask (vTD w)).getLsbD n = (v.mask (vTD w)).getLsbD n
    let el := fun r n => vtDec ty (elemAt (vtW ty) (v.tile r) n)
    (VecTurn s g 0xD9 i e → Answers (.vcmp g) s (fun t => others t ∧ ∀ n, n < vtN ty →
        ((t.vec g).mask (vTD w)).getLsbD n = (if vOn w v n = true then
          vtCmp (vIMM w) (el (vTA w) n) (el (vTB w) (if vSCAL w = true then 0 else n))
          else (v.mask (vTD w)).getLsbD n)))
      ∧ (VecTurn s g 0xE2 i e → Answers (.vmop g) s (fun t => others t ∧ ∀ n, n < vtN ty →
          let x := (v.mask (vTA w)).getLsbD n
          let y := (v.mask (vTB w)).getLsbD n
          ((t.vec g).mask (vTD w)).getLsbD n = (match vIMM w with
            | 0 => x && y
            | 1 => x || y
            | 2 => x != y
            | 3 => x && !y
            | 4 => !x
            | 5 => true
            | _ => false)))
      ∧ (VecTurn s g 0xDA i e → Answers (.vsel g) s (VecLeaves s g i e
          (v.each w e.reps (fun n x y _ => if (v.mask (vMK w)).getLsbD n = true then x else y))))
      ∧ (VecTurn s g 0xE3 i e → Answers (.viota g) s (VecLeaves s g i e
          (v.each w e.reps (fun n _ _ _ => satInt (vtW ty) n))))

/-- R137–R139, R145: a repeat of VLD or VLDS loads the elements the mask lets it write from the rows VADDR names, the rows of all
repeats lying in the scratchpad; VMLD loads a mask register, VCHLD a chain buffer. Nothing else of the engine changes but the
queue. -/
def VectorLoadsRule : Prop :=
  ∀ (s : State) (g i : Nat) (e : VEntry) (a : Nat), e.addr = a →
    let w := e.w
    let ty := vTy w
    let z := vtW ty / 8
    let v := s.vec g
    let at1 := fun p n => memRead s.mem (spBase g + p) n
    let loads := fun (t : State) (src : Nat → Nat) => VecTakes s g i e (VecDst e) t
      ∧ ∀ n, n < vtN ty → elemAt (vtW ty) ((t.vec g).tile (vTD w + e.reps)) n =
          if vOn w v n = true then at1 (src n) z else elemAt (vtW ty) (v.tile (vTD w + e.reps)) n
    (VecTurn s g 0xC0 i e → a + 1024 * (vREP w + 1) ≤ 6291456 → Readable s g 2 (a + 1024 * e.reps) 1024 →
      Answers (.vld g) s (fun t => loads t (fun n => a + 1024 * e.reps + z * n)))
    ∧ (VecTurn s g 0xC1 i e → (∀ k, k < vtR ty * (vREP w + 1) → a + k * e.pitch + 1024 / vtR ty ≤ 6291456) →
      (∀ k, k < vtR ty → Readable s g 2 (a + (vtR ty * e.reps + k) * e.pitch) (1024 / vtR ty)) →
      Answers (.vlds g) s (fun t => loads t (fun n => a + (vtR ty * e.reps + n / vtC ty) * e.pitch + z * (n % vtC ty))))
    ∧ (VecTurn s g 0xC4 i e → Readable s g 2 a 128 → Answers (.vmld g) s (fun t => VecDoes s t g i e
        ∧ (t.vec g).t = v.t ∧ KeepsPanelBytes s t
        ∧ ∀ k, (t.vec g).mask k = if k = vTD w then BitVec.ofNat 1024 (at1 a 128) else v.mask k))
    ∧ (VecTurn s g 0xC6 i e → Readable s g 2 a 144 → Answers (.vchld g) s (fun t => VecTakes s g i e (fun _ => False) t
        ∧ (t.vec g).chain.find (vTD w) = some (BitVec.ofNat 1152 (at1 a 144))))

/-- R137–R139, R145: a repeat of VST or VSTS stores the elements the mask lets it write, rows of VSTS at the pitch, and VMST a
mask register; no byte outside what is stored changes, and the registers stay. Rows of VSTS that overlap are not told apart here:
the bytes outside all rows stay for any pitch. -/
def VectorStoresRule : Prop :=
  ∀ (s : State) (g i : Nat) (e : VEntry) (a : Nat), e.addr = a → Memory.wf s.mem = true →
    let w := e.w
    let ty := vTy w
    let z := vtW ty / 8
    let v := s.vec g
    let rb := 1024 / vtR ty
    let stays := fun (t : State) => VecDoes s t g i e ∧ (t.vec g).t = v.t ∧ (t.vec g).m = v.m
    let byte := fun n j => BitVec.ofNat 8 (elemAt (vtW ty) (v.tile (vTB w + e.reps)) n / 256 ^ j)
    let row := fun k => spBase g + a + (vtR ty * e.reps + k) * e.pitch
    (VecTurn s g 0xC2 i e → a + 1024 * (vREP w + 1) ≤ 6291456 → Writable s g 2 (a + 1024 * e.reps) 1024 →
      Answers (.vst g) s (fun t =>
        let at1 := spBase g + a + 1024 * e.reps
        stays t
        ∧ (∀ n j, n < vtN ty → j < z → memGet t.mem (at1 + z * n + j) =
            if vOn w v n = true then byte n j else memGet s.mem (at1 + z * n + j))
        ∧ ∀ p, p < at1 ∨ at1 + 1024 ≤ p → memGet t.mem p = memGet s.mem p))
    ∧ (VecTurn s g 0xC3 i e → (∀ k, k < vtR ty * (vREP w + 1) → a + k * e.pitch + rb ≤ 6291456) →
      (∀ k, k < vtR ty → Writable s g 2 (a + (vtR ty * e.reps + k) * e.pitch) rb) → Answers (.vsts g) s (fun t =>
        stays t
        ∧ (rb ≤ e.pitch → ∀ n j, n < vtN ty → j < z →
            let p := row (n / vtC ty) + z * (n % vtC ty) + j
            memGet t.mem p = if vOn w v n = true then byte n j else memGet s.mem p)
        ∧ ∀ p, (∀ k, k < vtR ty → p < row k ∨ row k + rb ≤ p) → memGet t.mem p = memGet s.mem p))
    ∧ (VecTurn s g 0xC5 i e → Writable s g 2 a 128 → Answers (.vmst g) s (fun t =>
        stays t
        ∧ (∀ k, k < 128 → memGet t.mem (spBase g + a + k) = BitVec.ofNat 8 ((v.mask (vTB w)).toNat / 256 ^ k))
        ∧ ∀ p, p < spBase g + a ∨ spBase g + a + 128 ≤ p → memGet t.mem p = memGet s.mem p))

/-- R137–R139, R145: `VectorLoadsRule` and `VectorStoresRule`. -/
def Obligations.VectorLoadsAndStores : Prop := VectorLoadsRule ∧ VectorStoresRule

/-- R139, R146–R156: the instructions that move, reduce, sort, convert and quantise write their own destination tiles alone:
VTRN transposes; VRED, VSEGRED and VSEGSCAN write TD, the carry changing only with COUT; VSORT writes TD and, with a payload,
TC; VCMPR, VCVT and VDQNT write TD; VQNT the packed tile and the scale tile; VCHAIN its two output tiles. VMARK
changes nothing but its counter. Without stochastic rounding the generator stays. -/
def VectorRearrangingRule : Prop :=
  ∀ (s : State) (g k : Nat) (e : VEntry),
    let w := e.w
    let ty := vTy w
    let b := vtW ty
    let v := s.vec g
    let c := vtC ty
    let i := vIMM w
    let td := vTD w + e.reps
    let takes := fun (t : State) (p : Nat → Prop) => VecTakes s g k e p t
    (VecTurn s g 0xE4 k e → Answers (.vtrn g) s (fun t => takes t (VecDst e) ∧ (b = 32 → ∀ r j, r < 16 → j < 16 →
        elemAt b ((t.vec g).tile td) (16 * r + j) = elemAt b (v.tile (vTA w + e.reps)) (16 * j + r))))
    ∧ (VecTurn s g 0xE5 k e → Answers (.vred g) s (fun t => takes t (VecDst e) ∧ (t.vec g).carry = v.carry
        ∧ ∀ n, n < vtN ty → (if i % 2 = 1 then c else vtR ty) ≤ n → elemAt b ((t.vec g).tile td) n = 0))
    ∧ (VecTurn s g 0xE6 k e → Answers (.vsegred g) s (fun t => takes t (fun j => j = vTD w)
        ∧ (i % 2 = 0 → (t.vec g).carry = v.carry)))
    ∧ (VecTurn s g 0xE7 k e → Answers (.vsegscan g) s (fun t => takes t (fun j => j = vTD w)
        ∧ (i % 2 = 0 → (t.vec g).carry = v.carry)))
    ∧ (VecTurn s g 0xE8 k e → Answers (.vsort g) s (fun t =>
        takes t (fun j => VecDst e j ∨ (i / 4 = 1 ∧ j = vTC w + e.reps)) ∧ (t.vec g).gen = v.gen))
    ∧ (VecTurn s g 0xE9 k e → Answers (.vcmpr g) s (fun t => takes t (VecDst e) ∧ (t.vec g).gen = v.gen))
    ∧ (VecTurn s g 0xEA k e → Answers (.vcvt g) s (fun t => takes t (VecDst e) ∧ (i / 16 % 2 = 0 → (t.vec g).gen = v.gen)))
    ∧ (VecTurn s g 0xEB k e → Answers (.vqnt g) s (fun t => takes t (fun j => j = vTD w ∨ j = i / 64 % 32)
        ∧ (i / 32 % 2 = 0 → (t.vec g).gen = v.gen)))
    ∧ (VecTurn s g 0xEC k e → Answers (.vdqnt g) s (fun t => takes t (VecDst e) ∧ ∀ n, n < vtN ty →
        elemAt 8 (v.tile (vTB w)) (vtN ty / 32 * e.reps + n / 32) = 0xFF → elemAt b ((t.vec g).tile td) n = 0))
    ∧ (VecTurn s g 0xED k e → ∀ x, v.chain.find (i / 1024 % 8) = some x → chainLegal w (some x) = true →
        Answers (.vchain g) s (fun t => takes t (fun j => j = vTD w ∨ j = i / 32 % 32)))
    ∧ (VecTurn s g 0xEE k e → Answers (.vmark g) s (VecLeaves s g k e v))

/-- R134, R139, R145, R146–R156: `VectorMaskResultsRule` and `VectorRearrangingRule`. -/
def Obligations.VectorMasksAndMoves : Prop := VectorMaskResultsRule ∧ VectorRearrangingRule

/-- R137, R127: an instruction with a reserved opcode, type or value faults the core as illegal when it is taken, by the row
that takes it. A row for an instruction that none in the queue is does nothing. -/
def IllegalVectorInstructionsRule : Prop :=
  ∀ (s : State) (g : Nat), EnginesRun s g →
    (∀ e rest, (s.vec g).q = e :: rest → e.reps = 0 →
      (wOp e.w = 0xC8 → vecLegal e.w = false → Answers (.vadd g) s (EngineFaults g 0x01 2))
      ∧ (0xEF ≤ wOp e.w → Answers (.vadd g) s (EngineFaults g 0x01 2) ∧ Answers (.vmark g) s (EngineFaults g 0x01 2)))
    ∧ ((∀ e ∈ (s.vec g).q, wOp e.w ≠ 0xC8 ∧ wOp e.w < 0xEF) → exec (.vadd g) s = .next s)

/-- R137, R145, R127, R157, R158: `ElementwiseWritesItsDestinationRule`, `IllegalVectorInstructionsRule` and `VectorOrderRule`. -/
def Obligations.VectorDestinationsAndFaults : Prop :=
  ElementwiseWritesItsDestinationRule ∧ IllegalVectorInstructionsRule ∧ VectorOrderRule

/-! ## The edge engine -/

/-- A legal descriptor of operation op stands at the head of a running core's edge queue, the gathers and scatters before it
have issued all they have to, its regions lie in the scratchpad, and its counter is below 65,535. -/
def EdgeHead (s : State) (g op : Nat) (e : QEntry) (rest : List QEntry) : Prop :=
  EnginesRun s g ∧ (s.core g).edge.q = e :: rest ∧ edOp e.d = op
    ∧ (s.core g).edge.ops.all (fun o => o.todo.isEmpty && o.next == edCount o.q.d) = true
    ∧ edValid e.d (s.core g).edge.keyset.isSome = true
    ∧ (∀ r ∈ edRegions e.d, r.2 = 0 ∨ r.1 + r.2 ≤ 6291456)
    ∧ (s.core g).kVal (edKc e.d) ≠ 0xFFFF#16

/-- Between u and t the operation ends: its result word holds what it consumed and produced (R168), it has left the queue, its
counter has advanced by 1 (R104), and no byte outside the result word differs. -/
def EdgeEnds (u t : State) (g : Nat) (e : QEntry) (rest : List QEntry) (used made : Nat) : Prop :=
  memRead t.mem (spBase g + edRes e.d) 4 = made % 2 ^ 32 ∧ memRead t.mem (spBase g + edRes e.d + 4) 4 = used % 2 ^ 32
    ∧ (∀ z, z < spBase g + edRes e.d ∨ spBase g + edRes e.d + 8 ≤ z → memGet t.mem z = memGet u.mem z)
    ∧ (t.core g).edge.q = rest ∧ (t.core g).seq = (u.core g).seq ∧ (t.core g).c = (u.core g).c
    ∧ ∀ j, (t.core g).kVal j = if j = edKc e.d then (u.core g).kVal j + 1#16 else (u.core g).kVal j

/-- n 4-byte elements of site g's scratchpad at a. -/
def words4 (s : State) (g a n : Nat) : List Nat := (List.range n).map (fun i => memRead s.mem (spBase g + a + 4 * i) 4)

/-- The edge engine may read [a, a+n) of site g (R106, R171, R191). -/
def EdgeReads (s : State) (g a n : Nat) : Prop := Readable s g 3 a n

/-- R104, R168: an operation whose every access goes through ends with its result word, and its counter advances. -/
def EdgeResultWordRule : Prop :=
  ∀ (s u : State) (g : Nat) (e : QEntry) (rest : List QEntry) (used made : Nat),
    Memory.wf u.mem = true → edRes e.d + 8 ≤ 6291456 → u.owns g 3 (edRes e.d) 8 = true →
    let w := e.edge g
    let row := fun (i : Instr) (op : Nat) (f : Work → Quad → Eng (Nat × Nat)) => EdgeHead s g op e rest →
      (f w e.d).run s = .ok ((used, made), u) → (u.core g).kVal (edKc e.d) ≠ 0xFFFF#16 →
      Answers i s (fun t => EdgeEnds u t g e rest used made)
    row (.walk g) 0x0 edgeWalk ∧ row (.sample g) 0x6 edgeSample ∧ row (.dedup g) 0x2 edgeDedup
      ∧ row (.isect g) 0x3 (edgeSet 3) ∧ row (.union g) 0x4 (edgeSet 4) ∧ row (.diff g) 0x5 (edgeSet 5)
      ∧ row (.segmask g) 0x7 edgeSegmask ∧ row (.hist g) 0x9 edgeHist ∧ row (.sort g) 0xA edgeSort

/-- Two regions share no byte. -/
def Apart (r q : Nat × Nat) : Prop := r.1 + r.2 ≤ q.1 ∨ q.1 + q.2 ≤ r.1

/-- Between s and t the operation has gone through: it has left the queue, its counter has advanced by 1 (R104), the result word
tells what it consumed and produced, and no byte of the panel outside its output regions and its result word differs (R168). -/
def EdgeGoesThrough (s t : State) (g : Nat) (e : QEntry) (rest : List QEntry) (outs : List (Nat × Nat)) (ok : Nat → Nat → Prop) :
    Prop :=
  (∃ used made, ok used made ∧ memRead t.mem (spBase g + edRes e.d) 4 = made % 2 ^ 32
      ∧ memRead t.mem (spBase g + edRes e.d + 4) 4 = used % 2 ^ 32)
    ∧ (∀ z, z < 2 ^ 60 → (∀ r ∈ (edRes e.d, 8) :: outs, z < spBase g + r.1 ∨ spBase g + r.1 + r.2 ≤ z) →
        memGet t.mem z = memGet s.mem z)
    ∧ (t.core g).edge.q = rest ∧ (t.core g).seq = (s.core g).seq ∧ (t.core g).c = (s.core g).c
    ∧ ∀ j, (t.core g).kVal j = if j = edKc e.d then (s.core g).kVal j + 1#16 else (s.core g).kVal j

/-- The entry of shard sh as the edge engine has it at site g (R164, R165): from the map cache, else from the map in the
scratchpad; none outside the map's range or not in use. -/
def shardAt (s : State) (g sh : Nat) : Option (W64 × W64) :=
  let bp := corePage g
  let first := s.fld bp EDGE_SMAP_FIRST
  if sh < first ∨ first + min 4096 (s.fld bp EDGE_SMAP_NSHARD) ≤ sh then none
  else
    let e := match (s.core g).edge.mapCache.find? (fun e => e.1 == sh) with
      | some e => e.2
      | none =>
        let v := memRead s.mem (spBase g + 32 * s.fld bp EDGE_SMAP_BASE + 16 * (sh - first)) 16
        (BitVec.ofNat 64 v, BitVec.ofNat 64 (v / 2 ^ 64))
    if bit e.2 0 then some e else none

/-- The frontier, the shard's entry and the shard's index can be read (R164, R172): COUNT vertices at IN0, the entry in the map
cache or at its place in the map, an offset for each row and one more at IN1, and at INDEX the entries of z bytes below every
offset. -/
def WalkReads (s : State) (g z : Nat) (d : Quad) : Prop :=
  let n := shardRows (shardAt s g (edShard d))
  EdgeReads s g (edIn0 d) (4 * edCount d)
    ∧ (s.fld (corePage g) EDGE_SMAP_FIRST ≤ edShard d →
        (s.core g).edge.mapCache.any (fun e => e.1 == edShard d) = true
        ∨ EdgeReads s g (32 * s.fld (corePage g) EDGE_SMAP_BASE + 16 * (edShard d - s.fld (corePage g) EDGE_SMAP_FIRST)) 16)
    ∧ EdgeReads s g (edIn1 d) (4 * (n + 1))
    ∧ ∀ v ∈ words4 s g (edIn1 d) (n + 1), EdgeReads s g (edIndex d) (z * v)

/-- R168, R172, R173, R177, R180: WALK, SAMPLE, DEDUP and SEGMASK whose inputs can be read and whose outputs can be written, as
far as CAP lets them grow, go through: they consume at most COUNT elements, produce at most CAP, and write nothing else. -/
def EdgeWalksCompleteRule : Prop :=
  ∀ (s : State) (g : Nat) (e : QEntry) (rest : List QEntry), Memory.wf s.mem = true → Writable s g 3 (edRes e.d) 8 →
    let d := e.d
    let n := edCount d
    let cap := edCap d
    let z := if edFlag d 1 then 8 else 4
    let within := fun used made => used ≤ n ∧ made ≤ cap
    (EdgeHead s g 0x0 e rest → WalkReads s g z d →
      let out0 := (edOut0 d, (if edFlag d 0 then z else 8) * cap)
      let out1 := (edOut1 d, if edFlag d 0 then 4 * n else 0)
      let ins := [(edIn0 d, 4 * n), (edIn1 d, 4 * (shardRows (shardAt s g (edShard d)) + 1))]
      (∀ r ∈ [out0, out1], Writable s g 3 r.1 r.2 ∧ ∀ q ∈ ins, Apart r q) →
      Answers (.walk g) s (fun t => EdgeGoesThrough s t g e rest [out0, out1] within))
    ∧ (EdgeHead s g 0x6 e rest → WalkReads s g z d →
      let out0 := (edOut0 d, z * cap)
      let out1 := (edOut1 d, 4 * n)
      let ins := [(edIn0 d, 4 * n), (edIn1 d, 4 * (shardRows (shardAt s g (edShard d)) + 1))]
      (∀ r ∈ [out0, out1], Writable s g 3 r.1 r.2 ∧ ∀ q ∈ ins, Apart r q) →
      Answers (.sample g) s (fun t => EdgeGoesThrough s t g e rest [out0, out1] within))
    ∧ (EdgeHead s g 0x2 e rest → EdgeReads s g (edIn0 d) (edW d * n) →
      let out0 := (edOut0 d, edW d * min cap n)
      let out1 := (edOut1 d, if edFl d = 1 then 4 * n else 0)
      (∀ r ∈ [out0, out1], Writable s g 3 r.1 r.2) →
      Answers (.dedup g) s (fun t => EdgeGoesThrough s t g e rest [out0, out1] within))
    ∧ (EdgeHead s g 0x7 e rest → EdgeReads s g (edIn0 d) (4 * n) → Apart (edIn0 d, 4 * n) (edOut1 d, 4 * n) →
      let u := match edParam d 34 32 with | 0 => 16 | 1 => 32 | 2 => 256 | 3 => 512 | _ => 1024
      let images := ((words4 s g (edIn0 d) n).sum + u - 1) / u
      let out0 := (edOut0 d, 128 * images)
      let out1 := (edOut1 d, 4 * n)
      (∀ r ∈ [out0, out1], Writable s g 3 r.1 r.2) →
      Answers (.segmask g) s (fun t => EdgeGoesThrough s t g e rest [out0, out1] (fun used made => used = n ∧ made = images)))

/-- R168, R178, R179, R182, R183: ISECT, UNION and DIFF of any inputs, HIST and SORT in every form, whose inputs can be read and
whose outputs can be written, go through and write nothing else. -/
def EdgeSetsCompleteRule : Prop :=
  ∀ (s : State) (g : Nat) (e : QEntry) (rest : List QEntry), Memory.wf s.mem = true → Writable s g 3 (edRes e.d) 8 →
    let d := e.d
    let n := edCount d
    let na := if edFlag d 0 then (((s.core g).edge.keyset).getD []).length else n
    let nb := edParam d 63 32
    let out := (edOut0 d, if edFlag d 1 || edFlag d 2 then 0 else 4 * min (edCap d) (na + nb))
    let set := fun (c : Instr) (op : Nat) => EdgeHead s g op e rest →
      (edFlag d 0 = false → EdgeReads s g (edIn0 d) (4 * n)) → EdgeReads s g (edIn1 d) (4 * nb) → Writable s g 3 out.1 out.2 →
      Answers c s (fun t => EdgeGoesThrough s t g e rest [out] (fun used made => used ≤ na + nb ∧ made ≤ na + nb))
    set (.isect g) 0x3 ∧ set (.union g) 0x4 ∧ set (.diff g) 0x5
    ∧ (EdgeHead s g 0x9 e rest → EdgeReads s g (edIn0 d) (4 * n) →
      let bins := (edOut0 d, 4 * 2 ^ edParam d 35 32)
      Writable s g 3 bins.1 bins.2 → (edFl d = 1 → EdgeReads s g bins.1 bins.2) →
      Answers (.hist g) s (fun t => EdgeGoesThrough s t g e rest [bins] (fun used made => used = n ∧ made = 2 ^ edParam d 35 32)))
    ∧ (EdgeHead s g 0xA e rest → EdgeReads s g (edIn0 d) (edW d * n) → (edFlag d 0 = true → EdgeReads s g (edIn1 d) (4 * n)) →
      let out1 := (edOut1 d, if edFlag d 0 then 4 * n else 0)
      let tmp := (edIndex d, if 4096 < n then n * (edW d + (if edFlag d 0 then 4 else 0)) else 0)
      (∀ r ∈ [(edOut0 d, edW d * n), out1, tmp], Writable s g 3 r.1 r.2) →
      Answers (.sort g) s (fun t => EdgeGoesThrough s t g e rest [(edOut0 d, edW d * n), out1, tmp]
        (fun used made => used = n ∧ made = n)))

/-- R178: of two strictly ascending inputs ISECT, UNION and DIFF write, in strictly ascending order, the elements of both, of
either, of the first alone; the result word counts them. Here the output fits CAP, is not kept, and the result word lies
outside it. -/
def SetOperationsMergeRule : Prop :=
  ∀ (s : State) (g : Nat) (e : QEntry) (rest : List QEntry),
    let d := e.d
    let a := words4 s g (edIn0 d) (edCount d)
    let b := words4 s g (edIn1 d) (edParam d 63 32)
    let n := edCount d + edParam d 63 32
    Memory.wf s.mem = true → edFl d = 0 → n ≤ edCap d → a.Pairwise (· < ·) → b.Pairwise (· < ·) →
    EdgeReads s g (edIn0 d) (4 * edCount d) → EdgeReads s g (edIn1 d) (4 * edParam d 63 32) →
    EdgeReads s g (edOut0 d) (4 * n) → EdgeReads s g (edRes d) 8 →
    (edRes d + 8 ≤ edOut0 d ∨ edOut0 d + 4 * n ≤ edRes d) →
    let gives := fun (i : Instr) (op : Nat) (p : Nat → Prop) => EdgeHead s g op e rest → Answers i s (fun t =>
      ∃ l : List Nat, l.Pairwise (· < ·) ∧ (∀ x, x ∈ l ↔ p x) ∧ words4 t g (edOut0 d) l.length = l
        ∧ memRead t.mem (spBase g + edRes d) 4 = l.length ∧ (t.core g).edge.q = rest)
    gives (.isect g) 0x3 (fun x => x ∈ a ∧ x ∈ b) ∧ gives (.union g) 0x4 (fun x => x ∈ a ∨ x ∈ b)
      ∧ gives (.diff g) 0x5 (fun x => x ∈ a ∧ x ∉ b)

/-- R182, R183: SORT of keys alone writes them in ascending order, none added or lost; HIST writes, for each bin, the number
of keys that fall in it. -/
def SortAndHistogramResultsRule : Prop :=
  ∀ (s : State) (g : Nat) (e : QEntry) (rest : List QEntry),
    let d := e.d
    let n := edCount d
    let keys := words4 s g (edIn0 d) n
    Memory.wf s.mem = true → edFl d = 0 → edIw d = false → EdgeReads s g (edIn0 d) (4 * n) →
    EdgeReads s g (edRes d) 8 →
    (EdgeHead s g 0xA e rest → (4096 < n → EdgeReads s g (edIndex d) (4 * n)) → EdgeReads s g (edOut0 d) (4 * n) → (edRes d + 8 ≤ edOut0 d ∨ edOut0 d + 4 * n ≤ edRes d) →
      Answers (.sort g) s (fun t => (words4 t g (edOut0 d) n).Pairwise (· ≤ ·) ∧ (words4 t g (edOut0 d) n).Perm keys
        ∧ (t.core g).edge.q = rest))
    ∧ (EdgeHead s g 0x9 e rest →
      let nb := 2 ^ edParam d 35 32
      EdgeReads s g (edOut0 d) (4 * nb) → (edRes d + 8 ≤ edOut0 d ∨ edOut0 d + 4 * nb ≤ edRes d) →
      Answers (.hist g) s (fun t => (t.core g).edge.q = rest ∧ ∀ i, i < nb → memRead t.mem (spBase g + edOut0 d + 4 * i) 4 =
        (keys.filter (fun k => k / 2 ^ edParam d 40 36 % nb == i)).length))

/-- R178, R182, R183: `SetOperationsMergeRule` and `SortAndHistogramResultsRule`. -/
def Obligations.EdgeSetsAndSorts : Prop := SetOperationsMergeRule ∧ SortAndHistogramResultsRule

/-- R165, R174, R176, R181: a gather or scatter that may begin leaves the queue as the newest operation in flight with nothing
issued, and the engine goes on from there; one that has issued everything and has nothing outstanding ends with its result word,
its counter and its place free. A write of EDGE_SMAP takes the value and empties the map cache. -/
def GatherAndScatterRule : Prop :=
  ∀ (s : State) (g : Nat), siteOk g = true →
    let x := (s.core g).edge
    let begins := fun (i : Instr) (op : Nat) => ∀ e rest, EdgeHead s g op e rest → x.ops.length < 4 →
      (op = 8 → ∀ o ∈ x.ops, edOp o.q.d ≠ 1) →
      exec i s = .next ((s.updEdge g (fun y =>
        { y with q := rest, ops := y.ops ++ [⟨y.nextOp, e, 0, [], 0⟩], nextOp := y.nextOp + 1 })).pump g)
    let ends := fun (i : Instr) (op id : Nat) => ∀ o, x.ops.find? (fun o => o.id == id && edOp o.q.d == op) = some o →
      s.edgeFinished g o = true → (s.core g).enginesRun = true → Memory.wf s.mem = true → edRes o.q.d + 8 ≤ 6291456 →
      s.owns g 3 (edRes o.q.d) 8 = true → (s.core g).kVal (edKc o.q.d) ≠ 0xFFFF#16 →
      Answers i s (fun t => memRead t.mem (spBase g + edRes o.q.d) 4 = o.made % 2 ^ 32
        ∧ (∀ z, z < spBase g + edRes o.q.d ∨ spBase g + edRes o.q.d + 8 ≤ z → memGet t.mem z = memGet s.mem z)
        ∧ (∀ y ∈ (t.core g).edge.ops, y.id ≠ id)
        ∧ (t.core g).kVal (edKc o.q.d) = (s.core g).kVal (edKc o.q.d) + 1#16)
    begins (.gather g) 1 ∧ begins (.scatter g) 8
      ∧ (∀ id, ends (.gatherComplete g id) 1 id ∧ ends (.scatterComplete g id) 8 id)
      ∧ ∀ v, Answers (.edgeSmapWrite g v) s (fun t => (t.core g).edge.mapCache = []
          ∧ t.fld (corePage g) EDGE_SMAP_BASE = bits v 63 46 ∧ t.fld (corePage g) EDGE_SMAP_FIRST = bits v 31 16
          ∧ t.fld (corePage g) EDGE_SMAP_NSHARD = bits v 15 0 ∧ t.mem = s.mem)

/-- R104, R164, R165, R168, R172–R174, R176–R183: `EdgeResultWordRule`, `EdgeWalksCompleteRule`, `EdgeSetsCompleteRule` and
`GatherAndScatterRule`. -/
def Obligations.EdgeOperationsEnd : Prop :=
  EdgeResultWordRule ∧ EdgeWalksCompleteRule ∧ EdgeSetsCompleteRule ∧ GatherAndScatterRule

/-! ## Transfers, memory and the cache -/

/-- A packet numbered n of a type is at its destination endpoint, whose row clock runs where it is a core's (R340). -/
def AtEndpoint (s : State) (n type : Nat) (p : Packet) : Prop :=
  s.packet n = some p ∧ p.loc = .endpoint ∧ p.h.type = type ∧ s.epRuns p.h = true

/-- The injection queue of the destination's router takes m packets of an answer from the unit behind it (R266): the units of
the compute die share its 64 places. -/
def CanAnswer (s : State) (h : Hdr) (m : Nat) : Prop :=
  h.dep < 0x20 ∨ h.dep = 0x30 ∨ h.dep = 0x31 → s.injCount h.drouter + m ≤ 64

/-- In t, an answer of a type to the sender of h waits at the destination's router, with ARG arg and payload data. -/
def Replies (t : State) (h : Hdr) (type : Nat) (arg : BitVec 36) (data : W256) : Prop :=
  ∃ q ∈ t.fab.packets, q.h.type = type ∧ q.h.drouter = h.srouter ∧ q.h.dep = h.sep ∧ q.h.tag = h.tag ∧ q.h.vc = 1
    ∧ q.h.arg = arg ∧ q.data = data ∧ q.loc = .injq h.drouter

/-- R249: the transactions a run of bytes is cut into cover it in order, are at most the cap, and cross no boundary of their
space: 256 bytes in space 0x0, 512 elsewhere. -/
def TransfersAreCutAtBoundariesRule : Prop :=
  ∀ (a : W64) (land n cap mask : Nat), 0 < cap → a.toNat + n ≤ 2 ^ 64 →
    let l := pieces (n + 1) a land n cap mask
    (l.map (·.len)).sum = n ∧ (∀ p ∈ l, 0 < p.len ∧ p.len ≤ cap ∧ p.mask = mask)
      ∧ (∀ p ∈ l, addrSpace p.addr = addrSpace a → p.addr.toNat % (if addrSpace a = 0 then 256 else 512) + p.len
          ≤ (if addrSpace a = 0 then 256 else 512))
      ∧ ∀ i q, l[i]? = some q → q.land = land + ((l.take i).map (·.len)).sum ∧ q.addr.toNat = a.toNat + ((l.take i).map (·.len)).sum

/-- R102, R103, R106, R109, R214, R218: the agent takes the descriptor at the head of its queue while fewer than 4 run: a good
one runs with what it has to issue, translated as it is taken, and the agent goes on from there; a bad field faults ILLEGAL, a range refused at its source
faults DMA_REFUSED with RADDR. -/
def DmaDescriptorsStartRule : Prop :=
  ∀ (s : State) (g : Nat) (e : QEntry) (rest : List QEntry), EnginesRun s g → (s.core g).dma.q = e :: rest →
    (s.core g).dma.running.length < 4 →
    let d := e.d
    let i := (s.core g).dma.nextOp
    let local1 := ddOp d = 0 ∨ ddOp d = 1 ∨ ddOp d = 4 ∨ ddOp d = 5 ∨ (ddOp d = 3 ∧ ddRet d = true)
    let ranges := if ddOp d ≤ 1 then (ddRows d).all (fun x => s.rangeOk g x.1 x.2.2) else s.rangeOk g d.w1 (ddLen d)
    let good := ddValid d = true ∧ (local1 → (ddLen d = 0 ∨ ddLaddr d + ddLen d ≤ 6291456) ∧ s.owns g 4 (ddLaddr d) (ddLen d) = true)
    let taken := s.updDma g (fun x => { x with q := rest, ops := x.ops ++ [⟨i, e, (s.ddTodo g d).map (s.resolve g), false⟩], nextOp := i + 1 })
    let row := fun (c : Instr) (op : Nat) => ddOp d = op →
      (good → ranges = true → exec c s = .next (((if op = 6 then taken.cinvGo g i d else taken).dmaCheck g i).pump g))
        ∧ (ddValid d = false → Answers c s (EngineFaults g 0x01 4))
        ∧ (good → ranges = false → Answers c s (fun t => EngineFaults g 0x20 4 t ∧ t.reg (corePage g + 0x478) 0 = d.w1))
    row (.get g) 0 ∧ row (.put g) 1 ∧ row (.dmaFill g) 2 ∧ row (.atomic g) 3 ∧ row (.mcastRow g) 4 ∧ row (.mcastCol g) 5
      ∧ row (.cinv g) 6

/-- R249, R102, R103, R106, R109, R214: `TransfersAreCutAtBoundariesRule` and `DmaDescriptorsStartRule`. -/
def Obligations.DmaTransfers : Prop := TransfersAreCutAtBoundariesRule ∧ DmaDescriptorsStartRule

/-- Register field F of a page, one more on a counter that wraps or saturates. -/
def Counts1 (s t : State) (page : Nat) (F : Fld) : Prop := t.fld page F = (s.fld page F + 1) % 2 ^ (F.hi + 1 - F.lo)
def CountsSat (s t : State) (page : Nat) (F : Fld) (n : Nat) : Prop := t.fld page F = min (s.fld page F + n) F.max

/-- R221, R230, R236, R253, R266: a read request at a slice or scratchpad is answered, as soon as the injection queue takes the
answer, and changes no byte of the panel; the bytes of a read within one 32-byte word travel at their place in it. What the
destination refuses is answered with the reason, what it must hold waits. -/
def ReadsAreAnsweredRule : Prop :=
  ∀ (s : State) (n : Nat) (p : Packet), AtEndpoint s n 0 p →
    let h := p.h
    let off := p.data.toNat % 2 ^ 64
    let len := p.data.toNat / 2 ^ 64 % 2 ^ 16 + 1
    let words := (off % 32 + len + 31) / 32
    (512 < len → CanAnswer s h 1 → Answers (.rdreq n) s (fun t => Replies t h 9 7#36 0#256 ∧ t.mem = s.mem))
      ∧ (len ≤ 512 → s.gate h off len = .hold → exec (.rdreq n) s = .next s)
      ∧ (len ≤ 512 → ¬CanAnswer s h words → exec (.rdreq n) s = .next s)
      ∧ (∀ r, len ≤ 512 → CanAnswer s h words → s.gate h off len = .refuse r → Answers (.rdreq n) s (fun t =>
          Replies t h 9 (BitVec.ofNat 36 r) 0#256 ∧ t.mem = s.mem))
      ∧ (∀ base, len ≤ 512 → CanAnswer s h words → s.gate h off len = .serve base →
          Answers (.rdreq n) s (fun t => KeepsPanelBytes s t ∧ ∃ arg data, Replies t h 1 arg data))
      ∧ ∀ base, CanAnswer s h 1 → s.gate h off len = .serve base → h.dep < 0x30 → off % 32 + len ≤ 32 → p.data.getLsbD 81 = true →
          Answers (.rdreq n) s (fun t => KeepsPanelBytes s t ∧ ∃ arg, Replies t h 1 arg
            (BitVec.ofNat 256 (memRead s.mem (base + off) len * 256 ^ (off % 32))))

/-- R231, R236, R245, R251, R265: a write of one packet that its destination serves stores exactly the bytes it carries and is
acknowledged; one it refuses stores nothing and is answered REFUSE. A multicast copy at the head of its buffer in a router it
selects is delivered there, or counted as corrupt when it fails its CRC. -/
def WritesStoreTheirBytesRule : Prop :=
  ∀ (s : State) (n : Nat) (p : Packet) (off m v : Nat), Memory.wf s.mem = true → p.h.pidx = 0 → p.h.last = true →
    s.fab.rxs.find? (fun y => y.isOf p.h) = none → writeBytes p = some (off, m, v) → p.h.dep ≠ 0x31 → CanAnswer s p.h 1 →
    let row := fun (c : Instr) (type : Nat) => AtEndpoint s n type p →
      (∀ base, s.gate p.h off m = .serve base → Answers c s (fun t => Replies t p.h 5 0#36 0#256
        ∧ (∀ i, i < m → memGet t.mem (base + off + i) = BitVec.ofNat 8 (v / 256 ^ i))
        ∧ ∀ z, z < base + off ∨ base + off + m ≤ z → memGet t.mem z = memGet s.mem z))
      ∧ (∀ r, s.gate p.h off m = .refuse r → Answers c s (fun t => Replies t p.h 9 (BitVec.ofNat 36 r) 0#256 ∧ t.mem = s.mem))
    row (.wr n) 2 ∧ row (.hwr n) 3 ∧ (∀ ok, row (.mcast ⟨n, ok⟩) 4)
      ∧ ∀ r i, s.packet n = some p → p.h.type = 4 → p.h.vc ≠ 3 → p.loc = .router r i → s.isHead p = true → s.routerRuns r = true →
          let u := s.routerBoundary r
          let here := { mcSet p.h (2 ^ linePos r (mcCol p.h)) with drouter := r }
          linePos r (mcCol p.h) ∈ maskBits (mcMask p.h) → u.epRuns here = true → u.escFirst r 4 = false →
          Answers (.mcast ⟨n, true⟩) s (fun t => ∃ q ∈ t.fab.packets, q.loc = .endpoint ∧ q.h.drouter = r ∧ q.data = p.data ∧ q.h.type = 4)
          ∧ Answers (.mcast ⟨n, false⟩) s (fun t => CountsSat u t (spinePage r) NET_STATUS_CORRUPT 1)

/-- R221, R230, R236, R253, R231, R251, R265: `ReadsAreAnsweredRule` and `WritesStoreTheirBytesRule`. -/
def Obligations.MemoryReadsAndWrites : Prop := ReadsAreAnsweredRule ∧ WritesStoreTheirBytesRule

/-- R232–R234: an atomic at a slice replaces the word by what its operation computes from the old value, the operand and the
compare value, changes no other byte of the panel, and answers with the old value. A misaligned address is refused. -/
def Obligations.AtomicsReplaceOneWord : Prop :=
  ∀ (s : State) (n : Nat) (p : Packet) (base : Nat), Memory.wf s.mem = true → AtEndpoint s n 6 p → p.h.drouter < 384 →
    let h := p.h
    let off := p.data.toNat % 2 ^ 64
    let z := atomLen p
    let b := 8 * z
    let old := memRead s.mem (base + off) z
    let x := p.data.toNat / 2 ^ 64 % 2 ^ b
    let cmp := p.data.toNat / 2 ^ 128 % 2 ^ b
    let fp := fun (k : Nat) => val32 (BitVec.ofNat 32 k)
    let row := fun (c : Instr) (aop new : Nat) => atomAop p = aop → 0x20 ≤ h.dep → h.dep < 0x30 →
      (off % z ≠ 0 → Answers c s (fun t => Replies t h 9 7#36 0#256 ∧ t.mem = s.mem))
      ∧ (off % z = 0 → s.gate h off z = .serve base → s.poisonAt (base + off) z 32 = none → Answers c s (fun t =>
          memRead t.mem (base + off) z = new ∧ Replies t h 7 0#36 (BitVec.ofNat 256 old)
            ∧ ∀ a, a < 2 ^ 60 → a < base + off ∨ base + off + z ≤ a → memGet t.mem a = memGet s.mem a))
    row (.atomAdd n) 0x00 ((old + x) % 2 ^ b)
      ∧ (z = 4 → row (.atomFadd n) 0x01 (rne32 ((fp old).add (fp x))).1.toNat)
      ∧ row (.atomMin n) 0x02 (if sgn x b < sgn old b then x else old) ∧ row (.atomMinu n) 0x03 (min old x)
      ∧ (z = 4 → row (.atomFmin n) 0x04 (rne32 (if (fp x).lt (fp old) then fp x else fp old)).1.toNat)
      ∧ row (.atomMax n) 0x05 (if sgn old b < sgn x b then x else old) ∧ row (.atomMaxu n) 0x06 (max old x)
      ∧ (z = 4 → row (.atomFmax n) 0x07 (rne32 (if (fp old).lt (fp x) then fp x else fp old)).1.toNat)
      ∧ row (.atomSwap n) 0x08 x ∧ row (.atomCas n) 0x09 (if old = cmp then x else old)
      ∧ row (.atomCinc n) 0x0A (if (old + 1) % 2 ^ b = x then 0 else (old + 1) % 2 ^ b)

/-- A core that a fault can stop (R122). -/
def Live (s : State) (g : Nat) : Prop := (s.core g).seq = .run ∨ (s.core g).seq = .wait ∨ (s.core g).seq = .frozen

/-- R110–R112, R176, R251–R253: an acknowledgement that is not the last is counted off; the last closes the transaction, and its
core goes on. ERR, a refusal and a timeout fault the core of a DMA transfer, ERR and a timeout holding the tag out of use. Data of a read land at
their place in the scratchpad and are counted. An answer to a closed tag is counted LATE. -/
def AnswersReachTheirTransactionsRule : Prop :=
  ∀ (s : State) (n : Nat) (p : Packet) (x : Tx), s.txAt p.h.drouter p.h.dep p.h.tag = some x →
    let u := s.dropPacket n
    let key := (x.srouter, x.sep, x.tag)
    (AtEndpoint s n 5 p → p.h.arg.getLsbD 0 = false →
      (1 < x.acks → exec (.pktAck n) s = .next (u.updTx x.srouter x.sep x.tag (fun y => { y with acks := y.acks - 1 })))
        ∧ (x.acks ≤ 1 → exec (.pktAck n) s = .next (u.txDone x)))
    ∧ (∀ g i, x.use = .dma g i → Live s g → (∃ o ∈ (s.core g).dma.ops, o.id = i) →
        (AtEndpoint s n 5 p → p.h.arg.getLsbD 0 = true → Answers (.pktAck n) s (fun t =>
          EngineFaults g 0x21 4 t ∧ key ∈ t.fab.heldTags ∧ t.txAt x.srouter x.sep x.tag = none))
        ∧ (AtEndpoint s n 9 p → Answers (.refuse n) s (EngineFaults g 0x20 4))
        ∧ (s.txTimed x = true → Answers (.txTimeout x.srouter x.sep x.tag) s (fun t =>
            EngineFaults g 0x21 4 t ∧ key ∈ t.fab.heldTags ∧ t.txAt x.srouter x.sep x.tag = none))
        ∧ (AtEndpoint s n 1 p → Memory.wf s.mem = true → p.h.last = false → x.total = none → x.count < 16 → x.len ≤ 512 →
            p.h.arg.getLsbD 0 = false → x.first < 32 → p.h.pidx = 0 →
            let m := min x.len (32 - x.first)
            0 < m → s.owns g 4 x.land m = true → Answers (.rdrsp n) s (fun t =>
              (∀ i, i < m → memGet t.mem (spBase g + x.land + i) = BitVec.ofNat 8 (p.data.toNat / 256 ^ (x.first + i)))
                ∧ (∀ z, z < spBase g + x.land ∨ spBase g + x.land + m ≤ z → memGet t.mem z = memGet s.mem z)
                ∧ ∃ y, t.txAt x.srouter x.sep x.tag = some y ∧ y.count = x.count + 1)))
    ∧ (AtEndpoint s n 7 p → x.len = 0 → exec (.atrsp n) s = .next (u.answered x))
    ∧ (AtEndpoint s n 7 p → x.len ≠ 0 → exec (.atrsp n) s =
        .next ((u.land x.use x.land x.len (p.data.toNat % 2 ^ 64) .none x.addr).answered x))

/-- R114, R127, R242, R252: a signal of the target's partition adds 1 to its counter and is acknowledged; an answer whose tag is
not open, or a packet to a closed write, counts in LATE; a write whose rest does not come is closed with an error acknowledged,
when its timer runs and the host port does not hold it; a held tag released may be used again. -/
def SignalsAndLatePacketsRule : Prop :=
  ∀ (s : State) (n : Nat),
    (∀ p g, AtEndpoint s n 8 p → p.h.dep < 16 → s.epSite p.h.drouter p.h.dep p.h.part = some g → CanAnswer s p.h 1 →
      (p.h.part = 127 ∨ (s.core g).part = p.h.part) → (s.core g).kVal (p.h.arg.toNat % 16) ≠ 0xFFFF#16 →
      Answers (.pktSignal n) s (fun t => Replies t p.h 5 0#36 0#256
        ∧ ∀ j, (t.core g).kVal j = if j = p.h.arg.toNat % 16 then (s.core g).kVal j + 1#16 else (s.core g).kVal j))
    ∧ (∀ p, AtEndpoint s n 5 p → s.txAt p.h.drouter p.h.dep p.h.tag = none → Answers (.pktAck n) s (fun t =>
        t.fld (spinePage p.h.drouter) NET_STATUS_LATE =
          min (s.fld (spinePage p.h.drouter) NET_STATUS_LATE + 1) NET_STATUS_LATE.max ∧ t.mem = s.mem ∧ t.cores = s.cores))
    ∧ (∀ sr sep tag dr dep x, s.fab.rxs.find? (fun y => y.isOf (mkHdr sr sep dr dep 127 tag 0 2)) = some x → x.closed = false →
        (match s.txAt sr sep tag with | some y => s.txTimed y = true | none => s.therm.hold = 0) →
        (dep = 0x32 → ∀ q, portAt dr = some q → s.hostGate q x.part ≠ .hold) → CanAnswer s (mkHdr sr sep dr dep x.part tag 0 2) 1 →
        Answers (.destWriteTimeout sr sep tag dr dep) s (fun t => t.mem = s.mem
          ∧ Replies t (mkHdr sr sep dr dep x.part tag 0 2) 5 1#36 0#256
          ∧ ∃ y ∈ t.fab.rxs, y.isOf (mkHdr sr sep dr dep 127 tag 0 2) = true ∧ y.closed = true))
    ∧ (∀ sr sep tag, Answers (.tagRelease sr sep tag) s (fun t => t = { s with fab := t.fab }
        ∧ (sr, sep, tag) ∉ t.fab.heldTags ∧ t.fab.packets = s.fab.packets ∧ t.fab.txs = s.fab.txs))

/-- R110–R112, R176, R251–R253, R114, R127, R252: `AnswersReachTheirTransactionsRule` and `SignalsAndLatePacketsRule`. -/
def Obligations.FabricAnswersAndSignals : Prop := AnswersReachTheirTransactionsRule ∧ SignalsAndLatePacketsRule

/-- R222, R223, R228–R230: an invalidation by firmware leaves no line of the die, or none of the partition, and is done when it
is reported; a combining window's end closes its entry; refresh keeps every byte; a patrol scrub leaves no correctable sector
in its slice and changes no byte. -/
def Obligations.CacheAndHbmUpkeep : Prop :=
  ∀ (s : State) (d q k i : Nat),
    (dieOk d = true →
      Answers (.invAll d) s (fun t => t.lines d = [] ∧ t.mem = s.mem ∧ (∃ v ∈ t.fab.invs, v.die = d)
          ∧ ∀ f ∈ t.fab.fills, f.die = d → f.install = false)
      ∧ Answers (.invPart d q) s (fun t => (∀ l ∈ t.lines d, l.part ≠ q) ∧ t.mem = s.mem
          ∧ (∀ l ∈ s.lines d, l.part ≠ q → l ∈ t.lines d))
      ∧ (∀ v r, s.fab.invs = v :: r → v.die = d → v.op = none → v.ack = none → Answers (.cacheInvDone d) s (fun t =>
          t = { s with fab := { s.fab with invs := r } }))
      ∧ (∀ v r sr sep tag, s.fab.invs = v :: r → v.die = d → v.op = none → v.ack = some (sr, sep, tag) → s.injCount d + 1 ≤ 64 →
          Answers (.cacheInvDone d) s (fun t => t.fab.invs = r ∧ Replies t (mkHdr sr sep d 0x31 127 tag 0 2) 5 0#36 0#256)))
    ∧ Answers (.combineWindowEnd i) s (fun t => t.fab.combine = s.fab.combine.eraseIdx i ∧ t.mem = s.mem ∧ t.cores = s.cores)
    ∧ (sliceOk k = true → s.part.hasStack (k / 64) = true →
      Answers (.hbmRefresh k) s (fun t => t = { s with hbm := t.hbm }
          ∧ t.hbm.refreshes.getD k 0 = s.hbm.refreshes.getD k 0 + 1)
      ∧ Answers (.hbmPatrolScrub k) s (fun t => KeepsPanelBytes s t ∧ t.poison = s.poison
          ∧ ∀ a ∈ t.weak, a < hbmBase k ∨ hbmBase k + 805306368 ≤ a))

/-! ## The fabric -/

/-- In t the packet numbered n is at loc; its data and destination are those of k. -/
def PacketAt (t : State) (n : Nat) (loc : PktLoc) (k : Packet) : Prop :=
  ∃ q ∈ t.fab.packets, q.id = n ∧ q.loc = loc ∧ q.data = k.data ∧ q.h.drouter = k.h.drouter ∧ q.h.dep = k.h.dep

/-- R245, R246: the 96-bit header word holds each field at its place, so that the fields it spells give the word again; a packet's
CRC takes no part of the route bits and the channel. -/
def HeaderWordRule : Prop :=
  (∀ w : BitVec 96, (Hdr.ofWord w).word = w)
    ∧ ∀ (p : Packet) (vc rb : Nat), Packet.crc { p with h := { p.h with vc := vc, rb := rb } } = p.crc

/-- R110, R259, R266: a queued packet enters its router's LOCAL input, unless injection is stopped there, the packet is not
admitted, or its buffer is full. -/
def PacketsEnterRule : Prop :=
  ∀ (s : State) (n r part : Nat) (k : Packet), dieOk r = true →
    s.fab.packets.find? (fun p => p.loc == .injq r && p.h.part == part) = some k → k.id = n →
    let open1 := s.routerRuns r = true ∧ s.flag (routerPage r) RT_CFG_INJ_STOP = false ∧ s.admits r k = true
      ∧ s.bufRoom r 4 k.h.buf = true
    (open1 → ∃ v, exec (.packetInject r part) s = .next (v.pumpDie r) ∧ PacketAt v n (.router r 4) k)
      ∧ (¬open1 → exec (.packetInject r part) s = .next s)

/-- R256: the packet first on a link reaches the next router, or is held for a replay when its CRC fails; one behind it waits. -/
def PacketsCrossLinksRule : Prop :=
  ∀ (s : State) (n r p q sq : Nat) (k : Packet), s.packet n = some k → k.loc = .link r p sq 0 → nbr r p = some q →
    s.linkUp r p = true → s.routerRuns q = true →
    ((∀ x ∈ s.fab.packets, x.onLink r p = true → sq ≤ x.seqno) →
      Answers (.packetForward n true) s (fun t => PacketAt t n (.router q (oppPort p)) k ∧ t.mem = s.mem)
      ∧ Answers (.packetForward n false) s (fun t => PacketAt t n (.link r p sq 1) k))
    ∧ ((∃ x ∈ s.fab.packets, x.onLink r p = true ∧ x.seqno < sq) → ∀ ok, exec (.packetForward n ok) s = .next s)

/-- R245, R258–R261, R264: the packet at the head of its buffer, no multicast copy and bound for no engine, is delivered at its
own router, or discarded and counted when its CRC fails; one for a router out of service is dropped and counted; any other
leaves by the port chosen where the buffer beyond has a credit, the escape channel's by the port its table names. An escape
packet that can take the port goes first. -/
def RoutersForwardRule : Prop :=
  ∀ (s : State) (n r i : Nat) (k : Packet), s.packet n = some k → k.loc = .router r i → s.routerRuns r = true →
    s.isHead k = true → k.h.type ≠ 4 →
    let u := s.routerBoundary r
    let d := k.h.drouter
    let esc := k.h.vc = 3
    let port := if esc then some (u.fld (routerPage r) (if k.h.rb = 2 then RT_ESC_UP (u.bank r) d else RT_ESC_DOWN (u.bank r) d))
      else u.pick r d k.h.buf
    (esc ∨ k.h.rb ≠ 1) →
    (d = r → u.epRuns k.h = true → (esc ∨ u.escFirst r 4 = false) →
        Answers (.packetForward n true) s (fun t => PacketAt t n .endpoint k)
        ∧ Answers (.packetForward n false) s (fun t => (∀ q ∈ t.fab.packets, q.id ≠ n)
            ∧ CountsSat u t (spinePage r) NET_STATUS_CORRUPT 1))
      ∧ (d ≠ r → u.flag (routerPage r) (RT_DEAD (u.bank r) d) = true → ∀ ok, Answers (.packetForward n ok) s (fun t =>
          (∀ q ∈ t.fab.packets, q.id ≠ n) ∧ Counts1 u t (routerPage r) (RT_COUNT_W 6)))
      ∧ (d ≠ r → u.flag (routerPage r) (RT_DEAD (u.bank r) d) = false → ∀ ok p, port = some p → p < 4 →
          (u.linkUp r p = true → u.credit r p k.h.buf = true → (esc ∨ u.escFirst r p = false) →
            Answers (.packetForward n ok) s (fun t => PacketAt t n (.link r p (u.link r p).seq 0) k))
          ∧ (u.linkUp r p = false ∨ u.credit r p k.h.buf = false ∨ (¬esc ∧ u.escFirst r p = true) →
            exec (.packetForward n ok) s = .next u))

/-- R110, R245, R246, R256, R258–R261, R264, R266: `HeaderWordRule`, `PacketsEnterRule`, `PacketsCrossLinksRule` and `RoutersForwardRule`. -/
def Obligations.PacketsMove : Prop := HeaderWordRule ∧ PacketsEnterRule ∧ PacketsCrossLinksRule ∧ RoutersForwardRule

/-- R15, R245, R259, R261, R265, R268–R270: the blocked packet at the head of its buffer moves to the escape channel, and is
counted; a multicast copy becomes a packet on it for every router it still selects, unless it fails its CRC; at a photonic engine a
packet crosses on the next plane of its pair's stripe to the far block, is held on that plane when its CRC fails, and goes back to
the mesh when the pair is closed or the Meridian it crosses is open; OCC advertises what the engine holds for each block, at most
255. -/
def Obligations.EscapeAndTransit : Prop :=
  ∀ (s : State) (n b t0 : Nat) (k : Packet), s.packet n = some k →
    (∀ r i, k.loc = .router r i → k.h.vc ≠ 3 → s.routerRuns r = true → s.isHead k = true →
      (k.h.type ≠ 4 → ∀ ok, Answers (.escMove ⟨n, ok⟩) s (fun t =>
        PacketAt t n (.router r i) k ∧ (∃ q ∈ t.fab.packets, q.id = n ∧ q.h.vc = 3 ∧ q.h.rb = 2)
          ∧ Counts1 s t (routerPage r) (RT_COUNT_W 4)))
      ∧ (k.h.type = 4 → Answers (.escMove ⟨n, true⟩) s (fun t => Counts1 s t (routerPage r) (RT_COUNT_W 4)
          ∧ ∀ j ∈ maskBits (mcMask k.h), ∃ q ∈ t.fab.packets, q.loc = .router r i ∧ q.h.vc = 3 ∧ q.h.rb = 2 ∧ q.data = k.data
              ∧ q.h.drouter = lineRouter r (mcCol k.h) j)
        ∧ Answers (.escMove ⟨n, false⟩) s (fun t => (∀ q ∈ t.fab.packets, q.id ≠ n)
            ∧ CountsSat s t (spinePage r) NET_STATUS_CORRUPT 1)))
    ∧ (k.loc = .engine b t0 → s.therm.hold < 2 →
        let far := s.engineRouter t0 (dieY k.h.drouter % 4)
        let near := s.engineRouter b (dieY k.h.srouter % 4)
        (∀ pl, s.pairOpen b t0 = true → s.transitUp b t0 = true → s.nextPlane b t0 = some pl →
          (s.bufRoom far 4 k.h.buf = true → Answers (.transitPacket n true) s (fun t => PacketAt t n (.router far 4) k
            ∧ t.fab.stripe.getD (32 * b + t0) 9 = pl))
          ∧ Answers (.transitPacket n false) s (fun t => PacketAt t n (.wave b t0 pl) k))
        ∧ (s.pairOpen b t0 = false ∨ s.transitUp b t0 = false → s.bufRoom near 4 k.h.buf = true → ∀ ok,
            Answers (.transitPacket n ok) s (fun t => PacketAt t n (.router near 4) k)))
    ∧ (blockOk b = true → s.part.hasTransit = true → t0 < 32 → Answers (.occAdvertise b) s (fun t =>
        t.fab.occ.getD (32 * b + t0) 0 = min 255 (s.engineQ b t0) ∧ t.fab.packets = s.fab.packets))

/-- R256–R258: a replay sends the failed packet and those behind it again, and counts them; after 8 failed replays of one packet
the link waits for a retrain, which starts its replays anew; a link that goes down is down at both ends until a retrain, and
holds its packets until the far end reports, when they are routed again, or does not, when they are discarded and counted. -/
def LinksFailAndReturnRule : Prop :=
  ∀ (s : State) (r p q : Nat), linkOk r p = true → nbr r p = some q →
    (∀ k, s.fab.packets.find? (fun x => x.onLink r p && x.fails != 0) = some k → s.linkUp r p = true →
      let n := (s.fab.packets.filter (fun x => x.onLink r p && k.seqno ≤ x.seqno)).length
      (k.fails ≤ 8 → Answers (.linkReplay r p true) s (fun t => PacketAt t k.id (.router q (oppPort p)) k
          ∧ CountsSat s t (routerPage r) (LINK_STATUS_REPLAYS p) n)
        ∧ Answers (.linkReplay r p false) s (fun t => PacketAt t k.id (.link r p k.seqno (k.fails + 1)) k))
      ∧ (8 < k.fails → ∀ ok, exec (.linkReplay r p ok) s = .next s))
    ∧ (let stuck := ∃ x ∈ s.fab.packets, x.onLink r p = true ∧ 8 < x.fails
      ((s.link r p).up = true → stuck → Answers (.linkRetrain r p) s (fun t =>
          CountsSat s t (routerPage r) (LINK_STATUS_RETRAINS p) 1
          ∧ (t.link r p).up = true ∧ ∀ x ∈ t.fab.packets, x.onLink r p = true → x.fails ≤ 1))
      ∧ ((s.link r p).up = true → ¬stuck → exec (.linkRetrain r p) s = .next s)
      ∧ ((s.link r p).up = false → s.hole r = false → s.linkWidth r p ≠ 0 → Answers (.linkRetrain r p) s (fun t =>
          (t.link r p).up = true ∧ (t.link q (oppPort p)).up = true)))
    ∧ ((s.link r p).up = true → Answers (.linkDown r p) s (fun t => (t.link r p).up = false ∧ (t.link r p).reportDue = true
        ∧ (t.link q (oppPort p)).up = false ∧ (t.link q (oppPort p)).reportDue = true ∧ t.fab.packets = s.fab.packets
        ∧ t.fld (routerPage r) (LINK_STATUS_WIDTH p) = 0))
    ∧ ((s.link r p).reportDue = true → Answers (.linkDownReport r p) s (fun t => (t.link r p).reportDue = false
        ∧ ∀ x ∈ s.fab.packets, x.onLink r p = true → ∃ y ∈ t.fab.packets, y.id = x.id ∧ y.loc = .router r 4 ∧ y.data = x.data))
    ∧ ((s.link r p).reportDue = true → Answers (.replayReportTimeout r p) s (fun t => (t.link r p).reportDue = false
        ∧ (∀ x, x ∈ t.fab.packets ↔ x ∈ s.fab.packets ∧ x.onLink r p = false)
        ∧ t.fld (routerPage r) (RT_COUNT_W 6) = (s.fld (routerPage r) (RT_COUNT_W 6)
            + (s.fab.packets.filter (fun x => x.onLink r p)).length) % 2 ^ 64))
    ∧ ∀ lane, ((s.link r p).failed.contains lane = false → lane < 1056 → Answers (.laneFail r p lane) s (fun t =>
          lane ∈ (t.link r p).failed ∧ (∀ x ∈ (s.link r p).failed, x ∈ (t.link r p).failed)
            ∧ (lane < 1024 → (∀ x ∈ (s.link r p).failed, laneGroup x ≠ laneGroup lane) → lane ∈ (t.link r p).training)))
        ∧ (lane ∈ (s.link r p).training → Answers (.laneSpareSwitch r p lane) s (fun t => lane ∈ (t.link r p).spared
            ∧ lane ∉ (t.link r p).training))

/-- R269, R276: a failed plane leaves the stripe and the spares of its pair; a tuned spare enters the stripe; a failed
wavelength that passes a retest while its engine is in the dew state becomes a spare; a failed comb source closes every pair of its block; what a destination had
not accepted goes back to the engine on its report, or is discarded without one. A retune leaves the stripe. -/
def WavelengthsFailAndReturnRule : Prop :=
  ∀ (s : State) (b t0 k : Nat), waveOk b t0 k = true → s.part.hasTransit = true → b ≠ t0 →
    let bp := photPage b
    let w := s.fld bp (PH_PAIR_WORKING t0)
    let has := fun (m : Nat) => m / 2 ^ k % 2 = 1
    (has w ∨ has (s.fld bp (PH_PAIR_SPARE t0)) → Answers (.wavelengthFail b t0 k) s (fun t =>
        t.fld bp (PH_PAIR_WORKING t0) = clearBit w k ∧ ¬has (t.fld bp (PH_PAIR_SPARE t0)) ∧ has (t.fld bp (PH_PAIR_FAILED t0))))
    ∧ (k ∈ s.tuningOf b t0 → Answers (.wavelengthSpareEnable b t0 k) s (fun t =>
        t.fld bp (PH_PAIR_WORKING t0) = setBit w k ∧ ¬has (t.fld bp (PH_PAIR_SPARE t0))
          ∧ k ∉ t.tuningOf b t0))
    ∧ (has (s.fld bp (PH_PAIR_FAILED t0)) → s.engineDew b = true → Answers (.wavelengthRetest b t0 k true) s (fun t =>
        t.fld bp (PH_PAIR_WORKING t0) = w ∧ has (t.fld bp (PH_PAIR_SPARE t0)) ∧ ¬has (t.fld bp (PH_PAIR_FAILED t0))))
    ∧ exec (.wavelengthRetest b t0 k false) s = .next s
    ∧ (s.engineDew b = false → exec (.wavelengthRetest b t0 k true) s = .next s)
    ∧ (s.fab.combFailed.contains b = false → Answers (.combSourceFail b) s (fun t => b ∈ t.fab.combFailed
        ∧ t.flag bp PH_STATUS_COMB_LOCK = false ∧ ∀ i, i < 32 → t.fld bp (PH_PAIR_NWORK i) = 0))
    ∧ ((b, t0, k) ∈ s.fab.reports →
        Answers (.wavelengthReport b t0 k) s (fun t => (b, t0, k) ∉ t.fab.reports ∧ t.mem = s.mem
          ∧ ∀ x ∈ s.fab.packets, x.onWave b t0 k = true → ∃ y ∈ t.fab.packets, y.id = x.id ∧ y.loc = .engine b t0)
        ∧ Answers (.waveReportTimeout b t0 k) s (fun t => (b, t0, k) ∉ t.fab.reports
          ∧ ∀ x ∈ t.fab.packets, x ∈ s.fab.packets ∧ x.onWave b t0 k = false))
    ∧ exec (.phRetune b) s = .next s

/-- R256–R258, R269, R276: `LinksFailAndReturnRule` and `WavelengthsFailAndReturnRule`. -/
def Obligations.LinksAndWavelengths : Prop := LinksFailAndReturnRule ∧ WavelengthsFailAndReturnRule

/-- R10, R262, R263, R275: where every router in service still reaches every other on the links' kept directions, ROUTE_UPDATE
writes the new tables in the bank of every router that is not in effect, with the entries of routers out of service marked dead,
and each router changes to it at its next packet boundary; else it stops injection and
a re-orientation is due. The end of the drain empties the escape channel and lets injection start again. -/
def Obligations.RouteTablesChange : Prop :=
  ∀ (s : State), Tab.sorted s.regs = true → Tab.sorted s.shadow = true →
    (s.allReach (s.routeTables s.orientKept) = true → Answers .routeUpdate s (fun t => t.fab.down = s.orientKept
      ∧ t.fab.packets = s.fab.packets
      ∧ ∀ r, r < 384 → t.bank r = s.bank r ∧ (t.routerBoundary r).bank r = 1 - s.bank r
          ∧ ∀ d, d < 384 → t.flag (routerPage r) (RT_DEAD (1 - s.bank r) d) = s.hole d))
    ∧ (s.allReach (s.routeTables s.orientKept) = false → Answers .routeUpdate s (fun t => t.fab.reorient = true
      ∧ t.fab.down = s.fab.down ∧ ∀ r, r < 384 → s.hole r = false → t.flag (routerPage r) RT_CFG_INJ_STOP = true))
    ∧ (s.fab.reorient = true → Answers .escDrainEnd s (fun t => t.fab.reorient = false
      ∧ (∀ k ∈ t.fab.packets, k.h.vc = 3 → k.at? = none)
      ∧ ∀ r, r < 384 → s.hole r = false → t.flag (routerPage r) RT_CFG_INJ_STOP = false))
    ∧ (s.fab.reorient = false → exec .escDrainEnd s = .next s)

/-! ## The scratchpad's machinery -/

/-- R193: a write of OWNER hands a bank over, and a reserved code leaves it; a core reset makes the sequencer the owner of
every bank. -/
def OwnersChangeRule : Prop :=
  ∀ (s : State) (g : Nat), siteOk g = true →
    (∀ bank (v : W64), bank < 24 → Answers (.ownerWrite g bank v) s (fun t =>
        t.owner g bank = (if bits v 3 0 ≤ 5 then bits v 3 0 else s.owner g bank)
          ∧ (∀ b, b < 24 → b ≠ bank → t.owner g b = s.owner g b) ∧ t.mem = s.mem))
    ∧ Answers (.coreReset g) s (fun t => ∀ b, b < 24 → t.owner g b = ownSeq)

/-- R209: ZEROISE of an idle core with no migration makes every byte of its scratchpad zero, those of its spare and mapped-out
rows among them, clears all poison there, sets ZERO_BUSY and leaves the map tables, the trackers, the owners and every byte elsewhere; no Survey row starts while ZERO_BUSY is
set; at the end ZERO_BUSY is clear and what was written meanwhile stays. At any other time ZEROISE is refused: ZERO_BUSY stays as
it is, and SP_STATUS.CFG_LOCKED_WR and SEQ_STATUS.CFG_LOCKED_WR are set. -/
def Obligations.ZeroisationClearsTheScratchpad : Prop :=
  ∀ (s : State) (g : Nat), siteOk g = true →
    (s.coreIdle g = true → (s.core g).sp.mig = none → Memory.wf s.mem = true → Answers (.zeroise g) s (fun t =>
        (∀ a, a < 6291456 → memGet t.mem (spBase g + a) = 0#8)
          ∧ (∀ z, shelf g 0 0 ≤ z → z < shelf g 24 0 → memGet t.mem z = 0#8)
          ∧ (∀ z, z < spBase g ∨ spBase g + 6291456 ≤ z → z < shelf g 0 0 ∨ shelf g 24 0 ≤ z → memGet t.mem z = memGet s.mem z)
          ∧ (∀ q ∈ t.poison, q < spBase g ∨ spBase g + 6291456 ≤ q) ∧ t.flag (corePage g) SP_STATUS_ZERO_BUSY = true
          ∧ (t.core g).sp.maps = (s.core g).sp.maps ∧ (t.core g).sp.track = (s.core g).sp.track
          ∧ ∀ b, b < 24 → t.owner g b = s.owner g b))
    ∧ (s.flag (corePage g) SP_STATUS_ZERO_BUSY = true → exec (.surveyRowStart g) s = .next s)
    ∧ (s.coreIdle g = false ∨ (s.core g).sp.mig ≠ none → Answers (.zeroise g) s (fun t => t.mem = s.mem ∧ t.poison = s.poison
        ∧ t.flag (corePage g) SP_STATUS_ZERO_BUSY = s.flag (corePage g) SP_STATUS_ZERO_BUSY
        ∧ t.flag (corePage g) SP_STATUS_CFG_LOCKED_WR = true ∧ t.flag (corePage g) SEQ_STATUS_CFG_LOCKED_WR = true))
    ∧ Answers (.zeroiseDone g) s (fun t => t.flag (corePage g) SP_STATUS_ZERO_BUSY = false ∧ t.mem = s.mem ∧ t.cores = s.cores)

/-- R192, R202–R205: a pending write-back makes its granule sound; the Survey engine takes the next row that is in use and
not migrating, and goes on to the next when it passes or runs out of time; a row that fails is counted and held until it is
released, and a FREE spare that fails becomes BAD. None of these changes a byte of the panel. CE_CLEAR empties the trackers. -/
def Obligations.SurveyGoesThroughRows : Prop :=
  ∀ (s : State) (g : Nat), siteOk g = true →
    let bp := corePage g
    let x := (s.core g).sp
    let bank := s.fld bp SURVEY_STATUS_BANK
    let row := s.fld bp SURVEY_STATUS_ROW
    let gone := fun (t : State) => (t.core g).sp.hold = none ∧ t.mem = s.mem
      ∧ (row < 1087 → t.fld bp SURVEY_STATUS_ROW = row + 1 ∧ t.fld bp SURVEY_STATUS_BANK = bank)
    (∀ a r, x.scrub = a :: r → Answers (.scrubWriteback g) s (fun t => (t.core g).sp.scrub = r ∧ spBase g + a ∉ t.weak
        ∧ t.mem = s.mem))
    ∧ (s.flag bp SURVEY_CFG_ENABLE = true → s.flag bp SURVEY_CFG_PAUSE = false → s.flag bp SP_STATUS_ZERO_BUSY = false →
        x.hold = none → x.mig = none →
        (row < 1024 → (x.holds bank row).isSome = true → Answers (.surveyRowStart g) s (fun t =>
          (t.core g).sp.hold = some ⟨bank, row, false⟩ ∧ KeepsPanelBytes s t))
        ∧ (row < 1024 → x.holds bank row = none → Answers (.surveyRowStart g) s gone)
        ∧ (1024 ≤ row → (x.entry bank (row - 1024)).state = 2 → Answers (.surveyRowStart g) s gone))
    ∧ (∀ h, x.hold = some h → h.failed = false →
        Answers (.surveyRowEnd g true) s gone
        ∧ Answers (.surveyRowTimeout g) s (fun t => gone t ∧ t.fld bp SURVEY_STATUS_SKIPPED
            = min (s.fld bp SURVEY_STATUS_SKIPPED + 1) SURVEY_STATUS_SKIPPED.max)
        ∧ (h.row < 1024 ∨ (x.entry h.bank (h.row - 1024)).state ≠ 0 → Answers (.surveyRowEnd g false) s (fun t => t.mem = s.mem
            ∧ (t.core g).sp.hold = some { h with failed := true }
            ∧ t.fld bp SURVEY_STATUS_FAILS = min (s.fld bp SURVEY_STATUS_FAILS + 1) SURVEY_STATUS_FAILS.max))
        ∧ (1024 ≤ h.row → (x.entry h.bank (h.row - 1024)).state = 0 → Answers (.surveyRowEnd g false) s (fun t => gone t
            ∧ ((t.core g).sp.entry h.bank (h.row - 1024)).state = 2)))
    ∧ (∀ h, x.hold = some h → h.failed = true → Answers (.surveyRelease g) s (fun t => (t.core g).sp.hold = none
        ∧ KeepsPanelBytes s t))
    ∧ Answers (.ceClear g) s (fun t => t = { s.siteWake g with cores := t.cores } ∧ (t.core g).sp = { x with track := [] })

/-- No byte at an address of a scratchpad or of HBM differs between u and t; what spare and mapped-out rows hold may. -/
def KeepsAddressedBytes (u t : State) : Prop :=
  Memory.wf u.mem = true → ∀ z, z < 2 ^ 60 → z < 2 ^ 36 ∨ 2 ^ 37 ≤ z → memGet t.mem z = memGet u.mem z

/-- R206, R207, R211: GO of a legal migration makes it the one in progress, an illegal one is refused with RESULT 3; at its end
the spare entry maps the row and nothing migrates, no byte changing when the row's contents are at hand; SP_MAP names an entry,
and writes one only in an idle core, where a write that changes nothing is no refusal (R12). -/
def SparesAreMappedRule : Prop :=
  ∀ (s : State) (g bank e lrow : Nat), siteOk g = true →
    let x := (s.core g).sp
    let bp := corePage g
    let free := bank < 24 ∧ e < 64 ∧ lrow < 1024 ∧ (x.entry bank e).state = 0 ∧ x.mig = none
    (∀ src, free → (src = true ∨ x.hold = none) → Answers (.migrateGo g bank e lrow src) s (fun t =>
        (t.core g).sp.mig = some ⟨bank, e, lrow, src⟩ ∧ t.mem = s.mem))
    ∧ (∀ src, ¬free → Answers (.migrateGo g bank e lrow src) s (fun t => (t.core g).sp = x ∧ t.mem = s.mem
        ∧ bits (t.reg (bp + 0x7F0) 0) 3 2 = 3))
    ∧ (bank < 24 → e < 64 → lrow < 1024 → (x.entry bank e).state = 0 →
        (∀ i j, i < 64 → j < 64 → x.entry bank i = ⟨1, lrow⟩ → x.entry bank j = ⟨1, lrow⟩ → i = j) →
        (x.mig = some ⟨bank, e, lrow, false⟩ → Answers (.migrationDone g) s (fun t => (t.core g).sp.mig = none
          ∧ (t.core g).sp.entry bank e = ⟨1, lrow⟩ ∧ KeepsAddressedBytes s t))
        ∧ (x.mig = some ⟨bank, e, lrow, true⟩ → x.hold = some ⟨bank, s.physRow g bank lrow, true⟩ →
          Answers (.migrationDone g) s (fun t => (t.core g).sp.mig = none ∧ (t.core g).sp.hold = none
            ∧ (t.core g).sp.entry bank e = ⟨1, lrow⟩ ∧ KeepsAddressedBytes s t)))
    ∧ Answers (.spMapSelect g bank e) s (fun t => t.fld bp SP_MAP_BANK = bank % 32 ∧ t.fld bp SP_MAP_ENTRY = e % 64
        ∧ t.cores = s.cores ∧ t.mem = s.mem)
    ∧ (∀ st, st < 3 → bank < 24 → e < 64 → lrow < 1024 →
        (s.coreIdle g = true → Answers (.spMapWrite g bank e st lrow) s (fun t => (t.core g).sp.entry bank e = ⟨st, lrow⟩))
        ∧ (s.coreIdle g = false → x.entry bank e ≠ ⟨st, lrow⟩ → Answers (.spMapWrite g bank e st lrow) s (fun t =>
            (t.core g).sp = x ∧ t.mem = s.mem ∧ t.flag bp SEQ_STATUS_CFG_LOCKED_WR = true))
        ∧ (x.entry bank e = ⟨st, lrow⟩ → Answers (.spMapWrite g bank e st lrow) s (fun t => (t.core g).sp = x ∧ t.mem = s.mem
            ∧ t.flag bp SEQ_STATUS_CFG_LOCKED_WR = s.flag bp SEQ_STATUS_CFG_LOCKED_WR)))

/-- R193, R206, R207, R211: `OwnersChangeRule` and `SparesAreMappedRule`. -/
def Obligations.ScratchpadOwnersAndSpares : Prop := OwnersChangeRule ∧ SparesAreMappedRule

/-! ## Temperatures and cooling -/

/-- Reading i of a sensor unit whose fourth sample is t: the mean of the four, in 1/16 °C (R361). -/
def fourthMean (x : Sensed) (t : List Int) (i : Nat) : Int := ((x.samples ++ [t]).map (fun y => y.getD i 0)).sum / 4

/-- R361–R367: three samples of a unit wait for the fourth, which gives its temperature: a stack's own reading, a compute die's
highest; throttling begins above 85 °C and 90 °C, die hold at 105 °C, where the die's cores stop. Die hold ends at 95 °C or
below. A die at 105 °C in hold trips, its row clocks stopped. A sensor on an estimate for more than 60 s is marked in the
Almanac. A region whose die throttles goes down two codes, one whose boost is no longer allowed goes back to 800 MHz, a cool one
goes up one. The mean of four readings in R361 is the model's
rounding (log entry 20). -/
def Obligations.TemperaturesAndLimits : Prop :=
  ∀ (s : State),
    (∀ u t, s.sensFitted u = true → t.length = sensCount u → (s.sens (sensKey u)).samples.length < 3 →
      Answers (.sensorSample u t) s (fun v => v = { s with therm := v.therm }
        ∧ v.sens (sensKey u) = { s.sens (sensKey u) with samples := (s.sens (sensKey u)).samples ++ [t] }
        ∧ ∀ k, k ≠ sensKey u → v.sens k = s.sens k))
    ∧ (∀ n t, s.sensFitted (.stack n) = true → t.length = 1 → (s.sens (600 + n)).samples.length = 3 →
      let r := fourthMean (s.sens (600 + n)) t 0
      s.tin - 80 ≤ r → r < 1520 → Answers (.sensorSample (.stack n) t) s (fun v => v = { s with therm := v.therm }
        ∧ (v.sens (600 + n)).value = r ∧ (v.sens (600 + n)).reads = [r] ∧ (v.sens (600 + n)).samples = []
        ∧ (1360 < r → (v.sens (600 + n)).throttling = true)))
    ∧ (∀ d t, dieOk d = true → t.length = 4 → (s.sens d).samples.length = 3 →
      let x := s.sens d
      let r := fourthMean x t
      let top := max (max (r 0) (r 1)) (max (r 2) (r 3))
      (∀ i, i < 4 → s.tin - 80 ≤ r i) → (r 0 - r 1).natAbs ≤ 80 → (r 2 - r 3).natAbs ≤ 80 → x.pair0.flag = false →
      x.pair1.flag = false →
      (top < 1680 → Answers (.sensorSample (.compute d) t) s (fun v => (v.sens d).value = top ∧ v.mem = s.mem ∧ v.cores = s.cores
          ∧ (1440 < top → (v.sens d).throttling = true)
          ∧ v.fld (spinePage d) TH_STATUS_DIE_T = (top % 65536).toNat))
      ∧ (1680 ≤ top → top < 1840 → x.hold = false → Answers (.sensorSample (.compute d) t) s (fun v =>
          (v.sens d).value = top ∧ (v.sens d).hold = true ∧ v.flag (spinePage d) TH_STATUS_DIE_HOLD = true ∧ v.mem = s.mem
          ∧ (∀ i, i < 16 → (v.core (16 * d + i)).seq ≠ .run ∧ (v.core (16 * d + i)).seq ≠ .wait)
          ∧ ∀ g, dieOfSite g ≠ d → v.core g = s.core g)))
    ∧ (∀ d, dieOk d = true → (s.sens d).hold = true → (s.sens d).value ≤ 1520 → s.therm.hold = 0 →
      Answers (.dieHoldRelease d) s (fun v => (v.sens d).hold = false ∧ v.flag (spinePage d) TH_STATUS_DIE_HOLD = false
        ∧ v.mem = s.mem ∧ ∀ g, dieOfSite g ≠ d → v.core g = s.core g))
    ∧ (∀ d, dieOk d = true → 1680 ≤ (s.sens d).value → (s.sens d).hold = true ∨ s.therm.hold ≠ 0 →
      (s.chan (spineCh d)).on = true → s.fwRuns = false → Answers (.dieHoldTrip d) s (fun v => (v.sens d).trip = true
        ∧ v.flag (spinePage d) CLK_STATUS_NORTH_RUN = false ∧ v.flag (spinePage d) CLK_STATUS_SOUTH_RUN = false
        ∧ v.mem = s.mem ∧ v.cores = s.cores))
    ∧ (∀ u t0, s.sensFitted u = true → (s.sens (sensKey u)).model = some t0 → t0 + 60000 < s.ms → s.fwRuns = true →
      s.almVal (almKey almSensor (sensKey u)) 0 = 0 → Answers (.sensorModelTimeout u) s (fun v =>
        v.almVal (almKey almSensor (sensKey u)) 0 = 1 ∧ v.cores = s.cores ∧ KeepsPanelBytes s v))
    ∧ (∀ r, regionOk r = true → s.fwRuns = true → s.power.freq = none → s.therm.hold = 0 →
      let asks := fun (v : Nat) => Answers (.throttleStep r) s (fun t => t.mem = s.mem ∧ t.cores = s.cores
        ∧ ∃ f, t.power.freq = some f ∧ f.targets = oneRegion r v ∧ f.state = 1)
      let low := if r < 32 then 8 else 0x10
      let boosted := r < 32 ∧ 0x20 < s.regionCode r ∧ s.boostOk r = false
      (s.regionHot r = true → low < s.regionCode r → asks (max low (s.regionCode r - 2)))
      ∧ (s.regionHot r = true → s.regionCode r ≤ low → exec (.throttleStep r) s = .next s)
      ∧ (s.regionHot r = false → boosted → asks 0x20)
      ∧ (s.regionHot r = false → ¬boosted → s.regionCode r + 1 ≤ s.therm.asked.getD r 0x20 →
          s.targetsOk (oneRegion r (s.regionCode r + 1)) = true → asks (s.regionCode r + 1)))

/-- R370–R376: the coolant ceiling falls at once and rises by at most 60 W; a hold that has drained stops the row clocks, puts HBM in self-refresh and pauses
every partition; it ends, once its conditions hold, with the clocks running again; a pre-cool request stands while the forecast
passes 90 % of the ceiling, its flow at most 24 L/min; the dew state stops a die's clocks and retains its rows at 0.65 V; a
pre-warmed die heats. The 60 W, the steps' atomicity and the request's cap are as log entry 20
says. -/
def Obligations.CoolantHoldAndDew : Prop :=
  ∀ (s : State),
    (s.fwRuns = true → s.fac.haveFlow = true → s.fac.haveTemp = true → Answers .flowRecompute s (fun t =>
      t.therm.ceilFormed = true ∧ KeepsPanelBytes s t
        ∧ t.therm.ceilCool = (if s.therm.ceilFormed = true ∧ s.therm.ceilCool < s.coolant
            then min s.coolant (s.therm.ceilCool + 60) else s.coolant)))
    ∧ (s.therm.hold = 1 → s.fac.estop ≠ 2 → Answers .thermalHoldDrained s (fun t => t.therm.hold = 2
      ∧ t.hbm.selfRefresh = true ∧ KeepsPanelBytes s t
      ∧ (∀ d, d < 384 → (s.chan (spineCh d)).on = true → t.flag (spinePage d) CLK_STATUS_NORTH_RUN = false
          ∧ t.flag (spinePage d) CLK_STATUS_SOUTH_RUN = false)
      ∧ ∀ q, q < 64 → (s.prt q).live = true → .thermal ∈ (t.prt q).causes))
    ∧ (s.therm.hold = 2 → s.fac.silent = false → 900 ≤ s.fld (domePage 4) FAC_VALUES_FLOW → s.coolAll = true →
      s.fac.estop = 0 → s.fwRuns = true → Answers .thermalResume s (fun t => t.therm.hold = 0 ∧ t.therm.holdCauses = 0
        ∧ t.hbm.selfRefresh = false ∧ KeepsPanelBytes s t))
    ∧ (s.fwRuns = true → Answers .precoolPlan s (fun t =>
        let lim := (if s.therm.ceilFormed = true then s.therm.ceilCool else 12000) * 900
        t = { s with therm := { s.therm with precool := t.therm.precool } }
          ∧ ((∀ x ∈ s.foreTimes, s.panelFore x ≤ lim) → t.therm.precool = none)
          ∧ ((∃ x ∈ s.foreTimes, lim < s.panelFore x) → ∃ f i l p, t.therm.precool = some (f, i, l, p) ∧ f ≤ 2400 ∧ l ≤ 30000)))
    ∧ (∀ q, partOk q = true → s.rising q = true → s.therm.hold = 0 → Answers (.prewarmStart q) s (fun t =>
        t = { s with regs := t.regs } ∧ ∀ d ∈ s.diesOf q, s.inDew d = true → ∀ a, s.activeTemp (blockOf d) = some a →
          (s.sens d).value < a - (if s.prewarmed d = true then 48 else 192) → t.flag (spinePage d) TH_STATUS_HEATER = true))
    ∧ (∀ d, dieOk d = true → s.inDew d = false → s.fld (spinePage d) TH_CFG_DEW_S ≠ 0 → s.prewarmed d = false →
      s.therm.hold = 0 → (s.chan (spineCh d)).on = true → s.rowIdle d false = true → s.rowIdle d true = true →
      Answers (.dewEnter d) s (fun t => t.inDew d = true ∧ t.flag (spinePage d) CLK_STATUS_NORTH_RUN = false
        ∧ t.flag (spinePage d) CLK_STATUS_SOUTH_RUN = false ∧ t.mem = s.mem ∧ t.cores = s.cores
        ∧ ∀ h, h < 2 → (t.chan (rowCh d h)).retention = true ∧ (t.chan (rowCh d h)).retMv = 650))

/-- R377: once a second, for each compute die with temperature T: going down it keeps the lowest T and turns up on a rise of more
than 20 °C (320 units of 0.0625 °C) over it; going up it keeps the highest T and on a fall of more than 20 °C below it turns down
and one cycle is added to the die's Almanac count. -/
def Obligations.ThermalCyclesAreCounted : Prop :=
  ∀ (s : State), s.fwRuns = true → Answers .thermalCycleCount s (fun t => t.mem = s.mem ∧ t.cores = s.cores
    ∧ ∀ d, d < 384 → (s.sens d).reads ≠ [] →
      let x := s.sens d
      let y := t.sens d
      let n := fun (u : State) => u.almVal (almKey almCycles d) 0
      (x.dirUp = false → y.lo = min x.lo x.value ∧ n t = n s
        ∧ (320 < x.value - y.lo → y.dirUp = true ∧ y.hi = x.value) ∧ (x.value - y.lo ≤ 320 → y.dirUp = false ∧ y.hi = x.hi))
      ∧ (x.dirUp = true → y.hi = max x.hi x.value
        ∧ (320 < y.hi - x.value → y.dirUp = false ∧ y.lo = x.value ∧ n t = n s + 1)
        ∧ (y.hi - x.value ≤ 320 → y.dirUp = true ∧ y.lo = x.lo ∧ n t = n s)))

/-! ## Clocks and power -/

/-- R336–R346, R359: a die whose reference is lost selects the other, or enters holdover with none; a preferred reference that
is good again is selected, and one ends a holdover; an idle row's clock stops and work wakes it; an ARM's die restarts its row
clocks, sets its standby and answers by R337 and R346; all ready are committed at the deadline, else, or in thermal hold (R359), the
change is abandoned; a committed die switches its code and its region's, and one that never had COMMIT keeps its own. A droop
is counted. -/
def Obligations.ReferencesAndFrequency : Prop :=
  ∀ (s : State),
    (∀ die b, refDieOk die = true → s.hasDie die = true →
      let x := (s.ref die).setOk b false
      let y := (s.ref die).setOk b true
      (x.holdover = false → x.useB = b → x.okOf (!b) = true → Answers (.refLost die b) s (fun t =>
          t.ref die = { x with useB := !b } ∧ KeepsPanelBytes s t))
      ∧ (x.holdover = false → x.useB = b → x.okOf (!b) = false → Answers (.refLost die b) s (fun t =>
          t.ref die = { x with holdover := true } ∧ KeepsPanelBytes s t))
      ∧ (x.holdover = true ∨ x.useB ≠ b → Answers (.refLost die b) s (fun t => t.ref die = x ∧ t.mem = s.mem))
      ∧ (y.holdover = false → y.useB ≠ b → s.prefB die = b → Answers (.refRestore die b) s (fun t =>
          t.ref die = { y with useB := b } ∧ KeepsPanelBytes s t))
      ∧ (y.holdover = true ∨ y.useB = b ∨ s.prefB die ≠ b → Answers (.refRestore die b) s (fun t =>
          t.ref die = y ∧ t.mem = s.mem))
      ∧ ((s.ref die).holdover = true → Answers (.holdoverExit die b) s (fun t =>
          t.ref die = { y with holdover := false, useB := b } ∧ t.mem = s.mem
            ∧ (die < 384 → t.flag (spinePage die) CLK_STATUS_HOLDOVER = false))))
    ∧ (∀ d h, dieOk d = true →
      (s.flag (spinePage d) CLK_CFG_FORCE_RUN = false → s.fld (spinePage d) CLK_CFG_IDLE_US ≠ 0 → s.rowIdle d h = true →
        Answers (.clkRowStop d h) s (fun t => t = { s with regs := t.regs } ∧ t.flag (spinePage d) (rowRun h) = false))
      ∧ (s.therm.hold < 2 → (s.chan (rowCh d (b2n h))).on = true → Answers (.clkRowWake d h) s (fun t =>
          t.flag (spinePage d) (rowRun h) = true ∧ t.inDew d = false ∧ t.mem = s.mem ∧ t.cores = s.cores))
      ∧ (∀ u, u = false ∨ (s.chan (rowCh d (b2n h))).tripped = false → Answers (.droopStretch d h u) s (fun t =>
          t = { s with regs := t.regs }
            ∧ CountsSat s t (spinePage d) (if h = true then CLK_DROOP_SOUTH else CLK_DROOP_NORTH) 1)))
    ∧ (∀ die f, die < 392 → s.hasDie die = true →
      let v := f.targets.getD (regionOf die) 0
      (s.power.freq = some f → f.state = 1 → die ∈ f.dies → die ∉ f.armed → Answers (.freqArm die f.id f.targets) s (fun t =>
          t.power.freq = some { f with armed := f.armed ++ [die] }
            ∧ (t.ref die).yes = (if die < 384 then (s.rowWake die false).rowWake die true else s).armOk die v
            ∧ (t.ref die).standby = (if v = 0 then s.dieCode die else v) ∧ t.mem = s.mem))
      ∧ (s.power.freq = some f → f.state = 1 → die ∈ f.armed → die ∉ f.ready → die ∉ f.refused →
          Answers (.freqAck die) s (fun t => t = { s with power := t.power } ∧ t.power.freq =
            some (if (s.ref die).yes = true then { f with ready := f.ready ++ [die] } else { f with refused := f.refused ++ [die] })))
      ∧ (s.power.freq = some f → f.state = 1 → s.therm.hold = 0 → (∀ d ∈ f.dies, d ∈ f.ready) →
          Answers .freqCommitDeadline s (fun t => t.power.freq = some { f with state := 2 }
            ∧ t.fld (domePage 4) FREQ_STATUS_STATE = 2 ∧ t.mem = s.mem))
      ∧ (s.power.freq = some f → f.state = 1 → f.armed ≠ [] → (∃ d ∈ f.dies, d ∉ f.ready) ∨ s.therm.hold ≠ 0 →
          Answers .freqCommitDeadline s (fun t => t.power.freq = some { f with state := 3 }
            ∧ t.fld (domePage 4) FREQ_STATUS_STATE = 3 ∧ t.mem = s.mem))
      ∧ (s.power.freq = some f → f.state = 2 → die ∈ f.armed → die ∉ f.committed → Answers (.freqCommit die) s (fun t =>
          t = { s with power := t.power } ∧ t.power.freq = some { f with committed := f.committed ++ [die] }))
      ∧ (s.power.freq = some f → f.state = 2 → die < 384 → s.therm.hold < 2 → die ∈ f.armed → 0 < v → v < 256 →
          (die ∈ f.committed → (s.ref die).holdover = false → Answers (.freqSwitch die) s (fun t => t.mem = s.mem ∧ t.dieCode die = v
              ∧ t.regionCode (regionOf die) = v ∧ t.flag (spinePage die) CLK_STATUS_ARMED = false))
          ∧ (die ∉ f.committed → Answers (.freqSwitch die) s (fun t => t.mem = s.mem ∧ t.dieCode die = s.dieCode die
              ∧ t.flag (spinePage die) CLK_STATUS_ARMED = false))))

/-- R350–R355: a frame that a powered management die sends stands on its link with the next number and, when the power module
hears it, its verdict; what the module accepts it does: the channel named takes the voltage, the limit, goes on or off or into
retention, the link gets or loses its master, and no other channel changes. -/
def Obligations.PowerCommandsAreSent : Prop :=
  ∀ (s : State) (m ch n : Nat), m < 2 → ch < 1616 → n < 8 → (s.boot.ctl m).powered = true →
    let heard := s.power.vpmIn && (s.pcl n).up
    let sends := fun (i : Instr) (type c val : Nat) (eff : State → Prop) => Answers i s (fun t =>
      (t.pcl n).seq = ((s.pcl n).seq + 1) % 256
        ∧ (t.pcl n).out = (s.pcl n).out ++ [⟨(s.pcl n).seq, type, c, val, m, 0,
            if heard = true then some (s.verdict n m type c val) else none⟩]
        ∧ (heard = false ∨ s.verdict n m type c val ≠ 0 → t.mem = s.mem ∧ t.cores = s.cores ∧ ∀ x, t.chan x = s.chan x)
        ∧ (heard = true → s.verdict n m type c val = 0 → eff t))
    let only := fun (t : State) => ∀ x, x ≠ ch → t.chan x = s.chan x
    (n = chLink ch →
      (∀ mv, sends (.pclSetV m ch mv) 1 ch mv (fun t => (t.chan ch).mv = mv ∧ only t ∧ t.mem = s.mem))
      ∧ sends (.pclEnable m ch true) 2 ch 1 (fun t => (t.chan ch).on = true ∧ (t.chan ch).tripped = false
          ∧ ((railOf ch).nominal ≠ 0 → (t.chan ch).mv = (railOf ch).nominal) ∧ only t ∧ t.mem = s.mem)
      ∧ sends (.pclEnable m ch false) 2 ch 0 (fun t => (t.chan ch).on = false ∧ only t)
      ∧ (∀ mv e, sends (.pclRetain m ch mv false e) 3 ch (retainVal (mv % 65536) false e) (fun t =>
          (t.chan ch).retention = e ∧ (t.chan ch).retMv = mv % 65536 ∧ only t ∧ t.mem = s.mem))
      ∧ (∀ lim, sends (.pclSetIlim m ch lim) 4 ch lim (fun t => (t.chan ch).ilim = lim ∧ only t ∧ t.mem = s.mem))
      ∧ sends (.pclRead m ch) 5 ch 0 (fun t => (∀ x, t.chan x = s.chan x) ∧ t.mem = s.mem))
    ∧ (∀ b mv e, b < 32 → n = chLink (50 * b) → sends (.pclRetain m b mv true e) 3 b (retainVal (mv % 65536) true e) (fun t =>
        (∀ k, k < 24 → (t.chan (50 * b + k)).retention = e ∧ (t.chan (50 * b + k)).retMv = mv % 65536) ∧ t.mem = s.mem))
    ∧ sends (.pclClaim m n) 6 0 0 (fun t => (t.pcl n).master = some m ∧ (t.pcl n).beat = s.power.aon ∧ t.mem = s.mem)
    ∧ sends (.pclRelease m n) 8 0 0 (fun t => (t.pcl n).master = none ∧ (t.pcl n).released = some m ∧ t.mem = s.mem)
    ∧ Answers (.pclHeartbeat m n) s (fun t => t = { s with power := t.power } ∧ (t.pcl n).out = (s.pcl n).out
        ∧ (t.pcl n).seq = ((s.pcl n).seq + 1) % 256
        ∧ (t.pcl n).beat = if heard = true ∧ (s.pcl n).master = some m then s.power.aon else (s.pcl n).beat)

/-- R347, R351–R357: a frame that arrives advances its direction's number, and one whose CRC fails is counted and does nothing
else; an acknowledged voltage brings its channel into regulation; telemetry adds current × set voltage × 100
µs to the energy; over-limit halves the duties of the channel's cores; a collapsed input stage darkens the block; input values
are shown; a command without an answer is sent again, counted, and after three times the link goes down; a silent link passes
to the other die; a trip turns a channel off. -/
def Obligations.PowerModuleAnswers : Prop :=
  ∀ (s : State) (n ch : Nat), n < 8 →
    let arrives := s.power.vpmIn = true ∧ (s.pcl n).up = true
    let numbered := fun (t : State) => (t.pcl n).vseq = ((s.pcl n).vseq + 1) % 256
    (∀ q e, arrives → (s.pcl n).out.find? (fun e => e.seq == q && e.ans == some 0 && e.type != pclReadType) = some e →
      e.type = 1 → (s.chan e.ch).mv = e.val → (s.chan e.ch).on = true → Answers (.pclAck ⟨n, true⟩ q) s (fun t =>
        (t.chan e.ch).regulated = true ∧ numbered t
          ∧ (t.pcl n).out = (s.pcl n).out.filter (fun y => y != e) ∧ t.mem = s.mem))
    ∧ (∀ q r e, arrives → (s.pcl n).out.find? (fun e => e.seq == q && e.ans == some r && r != 0) = some e →
        (e.type ≠ 6 ∨ r ≠ 4 → Answers (.pclNak ⟨n, true⟩ q r) s (fun t => t = { s with power := t.power } ∧ numbered t
          ∧ (t.pcl n).out = (s.pcl n).out.filter (fun y => y != e)))
        ∧ (e.type = 6 → r = 4 → Answers (.pclNak ⟨n, true⟩ q r) s (fun t => t.boot.ready = false ∧ KeepsPanelBytes s t)))
    ∧ (∀ b l, arrives → (s.pcl n).master ≠ none → l.length = 50 → b < 32 →
        chLink (50 * b) = n → Answers (.pclTelem ⟨n, true⟩ b l) s (fun t => t = { s with power := t.power } ∧ numbered t
          ∧ ∀ i, i < 50 → (t.chan (50 * b + i)).entry = l.getD i 0#32
            ∧ t.power.energy.getD (50 * b + i) 0 = s.power.energy.getD (50 * b + i) 0
                + entryMa (l.getD i 0#32) * (s.chan (50 * b + i)).volts))
    ∧ (s.chFitted ch = true → n = chLink ch →
        (arrives → (s.pcl n).master ≠ none →
          (∀ d h g, railOf ch = .row d h → 16 * d + 8 * h ≤ g → g < 16 * d + 8 * h + 8 → Answers (.pclEvent ⟨ch, true⟩ 2) s (fun t =>
            t.fld (corePage g) SEQ_THROTTLE_DUTY = max 7 (s.fld (corePage g) SEQ_THROTTLE_DUTY / 2) ∧ t.mem = s.mem))
          ∧ (ch < 1600 → Answers (.pclEvent ⟨ch, true⟩ 4) s (fun t => ch / 50 ∈ t.power.darkBlocks))
          ∧ Answers (.pclEvent ⟨ch, true⟩ 3) s (fun t => t = { s with power := t.power } ∧ numbered t))
        ∧ (∀ mv x e, arrives → (s.pcl n).out.find? (fun e => e.type == pclReadType && e.ch == ch && e.ans == some 0) = some e →
            (s.chan ch).mv = mv → Answers (.pclStatus ⟨ch, true⟩ mv x) s (fun t => t = { s with power := t.power } ∧ numbered t
              ∧ (t.chan ch).entry = x ∧ (t.pcl n).out = (s.pcl n).out.filter (fun y => y != e)))
        ∧ ((s.chan ch).on = true → Answers (.channelTrip ch) s (fun t => (t.chan ch).on = false ∧ (t.chan ch).tripped = true
            ∧ ∀ x, x ≠ ch → t.chan x = s.chan x)))
    ∧ (∀ mv ma, arrives → Answers (.pclVheart ⟨n, true⟩ mv ma) s (fun t =>
        numbered t ∧ t.power.inputMv = mv % 65536 ∧ t.power.inputMa10 = ma % 65536 ∧ KeepsPanelBytes s t
          ∧ t.fld (domePage 4) (PCL_STATUS_INPUT_MV n) = mv % 65536 ∧ (s.fwRuns = true → t.panel.ceilingW = t.ceilingNow)))
    ∧ (∀ i : Instr, (∃ q, i = .pclAck ⟨n, false⟩ q) ∨ (∃ q r, i = .pclNak ⟨n, false⟩ q r) ∨ (∃ b l, i = .pclTelem ⟨n, false⟩ b l)
          ∨ (∃ mv ma, i = .pclVheart ⟨n, false⟩ mv ma)
          ∨ (s.chFitted ch = true ∧ n = chLink ch ∧ ((∃ k, i = .pclEvent ⟨ch, false⟩ k) ∨ ∃ mv x, i = .pclStatus ⟨ch, false⟩ mv x)) →
        (arrives → Answers i s (fun t => t = { s with regs := t.regs, power := { s.power with pcl := t.power.pcl } }
          ∧ t.pcl n = { s.pcl n with vseq := ((s.pcl n).vseq + 1) % 256 } ∧ (∀ m, m ≠ n → t.pcl m = s.pcl m)
          ∧ CountsSat s t (domePage 4) (PCL_STATUS_CRC_ERRORS n) 1))
        ∧ (¬arrives → Answers i s (fun t => t = s)))
    ∧ (∀ q e, (s.pcl n).out.find? (fun e => e.seq == q) = some e → e.die < 2 → e.ch < 1616 →
        (e.resends < 3 → Answers (.pclResend n q) s (fun t => CountsSat s t (domePage (4 + e.die)) (PCL_STATUS_RETRIES n) 1
          ∧ ∃ y ∈ (t.pcl n).out, y.type = e.type ∧ y.ch = e.ch ∧ y.val = e.val ∧ y.resends = e.resends + 1))
        ∧ (3 ≤ e.resends → Answers (.pclResend n q) s (fun t => t = { s with power := t.power } ∧ (t.pcl n).up = false)))
    ∧ (∀ ok, Answers (.pclRetrain n ok) s (fun t => t = { s with power := t.power } ∧ (t.pcl n).up = (ok && s.power.vpmIn)))
    ∧ (∀ m, (s.pcl n).master = some m → (s.pcl n).up = false → (s.boot.ctl (1 - m)).powered = true → s.power.vpmIn = true →
        Answers (.pclClaimTimeout n) s (fun t => (t.pcl n).master = some (1 - m) ∧ (t.pcl n).up = true))
    ∧ (∀ m, (s.pcl n).master = none → (s.pcl n).released = some m → (s.boot.ctl m).powered = true → s.power.vpmIn = true →
        (s.pcl n).up = true → Answers (.pclReclaim n) s (fun t => (t.pcl n).master = some m))
    ∧ (∀ b, blockOk b = true → b ∉ s.power.darkBlocks → Answers (.blockDark b) s (fun t => b ∈ t.power.darkBlocks
        ∧ (∀ k, k < 50 → (t.chan (50 * b + k)).on = false) ∧ t.panel.blockOnline.getLsbD b = false))

/-! ## The host: rings, commands, partitions -/

/-- Packet q of ring r is the next that a controller serving port p has taken from function f, and the reply ring has room
(R285, R286). -/
def CmdTaken (s : State) (p f r : Nat) (q : CmdPkt) : Prop :=
  s.hasFunc p f = true ∧ ringOk r = true ∧ (s.func p f).inbox.head? = some ⟨r, q, none⟩ ∧ (s.server p).isSome = true
    ∧ s.canReply p f = true

/-- The state once the packet has left the function's taken packets. -/
def taken (s : State) (p f : Nat) : State := s.setFunc p f { s.func p f with inbox := (s.func p f).inbox.tail }

/-- Row i takes packet q by the opcode of command m alone. -/
def CommandRow (p f r : Nat) (q : CmdPkt) (i : Instr) (m : Cmd) : Prop :=
  (i = .hostNop p f r q ∧ m = cmdNop) ∨ (i = .queryCap p f r q ∧ m = cmdQueryCap) ∨
    (i = .queryPart p f r q ∧ m = cmdQueryPart) ∨ (i = .queryHandle p f r q ∧ m = cmdQueryHandle) ∨
    (i = .queryOffered p f r q ∧ m = cmdQueryOffered) ∨ (i = .bind p f r q ∧ m = cmdBind) ∨
    (i = .unbind p f r q ∧ m = cmdUnbind) ∨ (i = .adminRelease p f r q ∧ m = cmdAdminRelease) ∨
    (i = .partCreate p f r q ∧ m = cmdPartCreate) ∨ (i = .partResize p f r q ∧ m = cmdPartResize) ∨
    (i = .partDestroy p f r q ∧ m = cmdPartDestroy) ∨ (i = .setQuota p f r q ∧ m = cmdSetQuota) ∨
    (i = .setOrphan p f r q ∧ m = cmdSetOrphan) ∨ (i = .pause p f r q ∧ m = cmdPause) ∨ (i = .resume p f r q ∧ m = cmdResume) ∨
    (i = .ephemeris p f r q ∧ m = cmdEphemeris) ∨ (i = .memAlloc p f r q ∧ m = cmdMemAlloc) ∨
    (i = .memFree p f r q ∧ m = cmdMemFree) ∨ (i = .copyIn p f r q ∧ m = cmdCopyIn) ∨ (i = .copyOut p f r q ∧ m = cmdCopyOut) ∨
    (i = .fill p f r q ∧ m = cmdFill) ∨ (i = .checkpoint p f r q ∧ m = cmdCheckpoint) ∨ (i = .check p f r q ∧ m = cmdCheck) ∨
    (i = .run p f r q ∧ m = cmdRun) ∨ (i = .abort p f r q ∧ m = cmdAbort) ∨ (i = .setReg p f r q ∧ m = cmdSetReg) ∨
    (i = .fwUpdate p f r q ∧ m = cmdFwUpdate) ∨ (i = .logRing p f r q ∧ m = cmdLogRing) ∨
    (i = .setCeiling p f r q ∧ m = cmdSetCeiling)

/-- R290–R293: a command that fails a check is answered with the code of the first that fails and changes nothing else; a
reserved opcode is answered REJ_OPCODE; one that passes and completes later is answered OK with the next handle of the lowest
free slot of its pool, which names a waiting command with its packet, and what may start then starts. -/
def Obligations.CommandsAreCheckedAndAccepted : Prop :=
  ∀ (s : State) (p f r : Nat) (q : CmdPkt), CmdTaken s p f r q →
    let u := taken s p f
    let c : Ctx := ⟨p, f, r, q, none⟩
    (opcodes.contains (pktOp q) = false →
      exec (.hostReservedOpcode p f r q) s = .next (u.reply p f stRejOpcode 0#32 c.cid false 0#64))
    ∧ ∀ (i : Instr) (m : Cmd), CommandRow p f r q i m → pktOp q = m.op →
      (m.check c u ≠ 0 → exec i s = .next (u.reply p f (m.check c u) 0#32 c.cid false
          (BitVec.ofNat 64 (if m.check c u = stRejState then m.rejVal c u else 0))))
      ∧ (m.check c u = 0 → m.later = true → ∀ n, u.freeHandle (c.pool u) = some n →
          Answers i s (fun t => ∃ w : State, t = w.startWaiting (m.target c u)
            ∧ (∃ x ∈ w.handles, x.h = u.nextHandle n ∧ x.opcode = m.op ∧ x.pkt = q ∧ x.state = .waiting ∧ x.part = c.part
                ∧ x.target = m.target c u)
            ∧ (∀ x ∈ s.handles, x ∈ w.handles) ∧ w.panel.gens.getD n 0 = (u.nextHandle n).toNat % 2 ^ 20))

/-- R298, R304, R310–R313, R323, R324, R331–R333, R374, R446–R449, R489: what the commands that complete at once do, when they
pass their checks, before or with their OK reply. -/
def Obligations.ImmediateCommandsAct : Prop :=
  ∀ (s : State) (p f r : Nat) (q : CmdPkt), CmdTaken s p f r q →
    let u := taken s p f
    let c : Ctx := ⟨p, f, r, q, none⟩
    let rep := fun (w : State) (v : Nat) => w.reply p f stOk 0#32 c.cid false (BitVec.ofNat 64 v)
    let ok := fun (m : Cmd) => pktOp q = m.op ∧ m.check c u = 0
    let b := bits q.p0 6 0
    (ok cmdNop → exec (.hostNop p f r q) s = .next (rep u 0))
    ∧ (ok cmdQueryCap → exec (.queryCap p f r q) s =
        .next (rep (u.hostWrite p q.p0.toNat 64 u.capRecord) u.panel.recordGen.toNat))
    ∧ (ok cmdQueryPart → exec (.queryPart p f r q) s = .next (rep (u.hostWrite p q.p0.toNat 64 (u.partBlock c.part)) 0))
    ∧ (∀ h, ok cmdQueryHandle → c.named u = some h → exec (.queryHandle p f r q) s =
        .next (rep u (u.handleState h * 2 ^ 56 + h.opcode * 2 ^ 48 + h.cid.toNat * 2 ^ 32
          + min 0xFFFFFFFF ((u.power.aon - h.since) / 25000))))
    ∧ (ok cmdQueryOffered → exec (.queryOffered p f r q) s = .next (rep u (u.offered p)))
    ∧ (ok cmdBind → Answers (.bind p f r q) s (fun t => (t.prt b).bound = true ∧ (t.prt b).hport = p ∧ (t.prt b).hfunc = f
        ∧ (t.prt b).orphaned = false ∧ KeepsPanelBytes s t))
    ∧ (ok cmdUnbind → Answers (.unbind p f r q) s (fun t => t.prt b = { s.prt b with bound := false }
        ∧ (∀ x, x ≠ b → t.prt x = s.prt x) ∧ KeepsPanelBytes s t))
    ∧ (ok cmdAdminChallenge → bits q.p0 1 0 = 0 → Answers (.adminChallenge p f r q) s (fun t =>
        (t.func p f).nonce = some (Config.freeW64 s.free, s.ms) ∧ t.free = s.free + 1 ∧ KeepsPanelBytes s t))
    ∧ (ok cmdAdminRequest → bits q.p0 1 0 = 1 → Answers (.adminRequest p f r q) s (fun t =>
        t.panel.admin = some (p, f) ∧ t.panel.adminByFacility = false ∧ (t.func p f).nonce = none ∧ KeepsPanelBytes s t))
    ∧ (ok cmdAdminEnrol → bits q.p0 1 0 = 2 → Answers (.adminEnrol p f r q) s (fun t => t.boot.opKeys =
        some (blkEdHash (u.reqBlock p q.p1), blkMlHash (u.reqBlock p q.p1)) ∧ (t.func p f).nonce = none ∧ KeepsPanelBytes s t))
    ∧ (ok cmdAdminRelease → Answers (.adminRelease p f r q) s (fun t => t.panel.admin = none ∧ KeepsPanelBytes s t))
    ∧ (ok cmdSetQuota → Answers (.setQuota p f r q) s (fun t => KeepsPanelBytes s t
        ∧ (t.prt b).handleQuota = (if quotaSel c 0 = true then bits q.p1 11 0 else (s.prt b).handleQuota)
        ∧ (t.prt b).weight = (if quotaSel c 1 = true then bits q.p1 23 16 else (s.prt b).weight)
        ∧ (t.prt b).budgetNext = (if quotaSel c 2 = true then q.p2.toNat else (s.prt b).budgetNext)
        ∧ (t.prt b).windowNext = (if quotaSel c 3 = true then bits q.p3 23 0 else (s.prt b).windowNext)
        ∧ (t.prt b).hbmQuota = (if quotaSel c 4 = true then bits q.p1 43 32 else (s.prt b).hbmQuota)))
    ∧ (ok cmdSetOrphan → Answers (.setOrphan p f r q) s (fun t => KeepsPanelBytes s t
        ∧ t.prt c.part = { s.prt c.part with policy := bit q.p0 8, grace := bits q.p1 31 0,
                                             token := if bit q.p0 9 = true then q.p2 else (s.prt c.part).token }))
    ∧ (ok cmdResume → exec (.resume p f r q) s = .next (rep ((u.resumePart c.part).startAll) 0))
    ∧ (∀ l, ok cmdEphemeris → foreOf c u = some l → Answers (.ephemeris p f r q) s (fun t => KeepsPanelBytes s t
        ∧ t.prt c.part = { s.prt c.part with forecast := l, forecastAt := s.ms }))
    ∧ (∀ k, ok cmdMemAlloc → (u.freeRun c.part (bits q.p0 11 0)).1 = some k → exec (.memAlloc p f r q) s =
        .next (rep (u.memAlloc c.part k (bits q.p0 11 0)) k))
    ∧ (∀ h, ok cmdAbort → c.named u = some h →
        (h.state = .complete → exec (.abort p f r q) s = .next (rep u 1))
        ∧ (h.state ≠ .complete →
            exec (.abort p f r q) s = .next (rep ((u.endCmd h.h stAbortHost State.endWith).settle.startAll) 0)))
    ∧ (∀ g, ok cmdSetReg → regCount c = 1 → u.lsite c.part (regFirst c) = some g →
        let y := u.setCoreReg g (bits q.p0 11 0) q.p1 q.p2
        exec (.setReg p f r q) s = .next (rep y.1 (1 + b2n y.2 * 2 ^ 32)))
    ∧ (ok cmdDebugChallenge → bits q.p0 1 0 = 0 → Answers (.debugChallenge p f r q) s (fun t =>
        t.boot.debugNonce = some (Config.freeW64 s.free, s.ms) ∧ t.free = s.free + 1 ∧ KeepsPanelBytes s t))
    ∧ (ok cmdDebugUnlock → bits q.p0 1 0 = 1 → Answers (.debugUnlock p f r q) s (fun t => t.boot.unlocked = true
        ∧ t.boot.scope = bits (blkWord (u.reqBlock p q.p1) 0) 50 48 ∧ t.boot.ready = false ∧ t.boot.debugRestart = true
        ∧ t.boot.debugNonce = none ∧ KeepsPanelBytes s t))
    ∧ (ok cmdDebugRelock → bits q.p0 1 0 = 2 → Answers (.debugRelock p f r q) s (fun t => t.boot.unlocked = false
        ∧ t.boot.scope = 0 ∧ t.boot.ready = false ∧ t.boot.debugRestart = true ∧ KeepsPanelBytes s t))
    ∧ (ok cmdLogRing → Answers (.logRing p f r q) s (fun t => t.panel.logRing = some (p, f) ∧ (t.func p f).logHead = 0
        ∧ t.flag (barPage p f) LOG_CFG_ENABLE = true ∧ t.fld (barPage p f) LOG_CFG_TAIL = 0 ∧ KeepsPanelBytes s t))
    ∧ (ok cmdSetCeiling → Answers (.setCeiling p f r q) s (fun t => t.panel.adminCeil = bits q.p0 31 0
        ∧ t.panel.ceilingW = t.ceilingNow ∧ KeepsPanelBytes s t))

/-- R301–R305, R316, R450: a RUN whose cores have all halted ends OK, one past its timeout ends TIMEOUT; the record of a command
that has been aborted is queued; a RUN's end frees its cores and its status is no milder than what it is given; a PAUSE ends when no
core runs, a copy or a FILL when the bytes that are left are written. A partition becomes ACTIVE, or PAUSED while a cause stands; a destroyed one is FREE, its cores reset and its units owned by none. -/
def Obligations.CommandsComplete : Prop :=
  ∀ (s : State) (h : W32) (x : Handle), s.handle h = some x →
    (x.opcode = 0x30 → x.state = .running → x.due = false → (s.jobSites h).length = x.lcCount →
      (∀ g ∈ s.jobSites h, (s.core g).seq = .halted) → exec (.runComplete h) s = .next ((s.runEnd h stOk).afterEnd))
    ∧ (x.opcode = 0x30 → x.state = .running → bits x.pkt.p6 47 32 ≠ 0 → (s.prt x.part).causes = [] →
      exec (.runTimeout h) s = .next ((s.endCmd h stTimeout).afterEnd))
    ∧ (x.due = true → (x.opcode = 0x30 → exec (.runComplete h) s = .next ((s.queueRecord h).afterEnd))
        ∧ (x.opcode ≠ 0x30 → exec (.commandComplete h) s = .next ((s.queueRecord h).afterEnd)))
    ∧ (∀ st, x.state ≠ .complete → s.handles.filter (fun y => y.h == h) = [x] → let t := s.runEnd h st
        (∀ g ∈ s.jobSites h, (t.core g).handle = 0#32)
          ∧ ∀ y ∈ t.handles, y.h = h → y.state = .complete ∧ statusRank st ≤ statusRank y.status)
    ∧ (x.opcode = 0x15 → x.state = .running → x.due = false → (∀ g ∈ s.partSites x.target, (s.core g).seq ≠ .run ∧ (s.core g).seq ≠ .wait) →
      exec (.commandComplete h) s = .next ((s.complete x.h stOk).afterEnd))
    ∧ (x.opcode = 0x22 ∨ x.opcode = 0x23 ∨ x.opcode = 0x24 → x.state = .running → x.due = false →
      (s.prt x.target).state ≠ .paused →
      let n := x.copyLen - x.done
      let w := if x.opcode = 0x24 then s.fwWrite x.part (x.pkt.p0 + BitVec.ofNat 64 x.done) n (patVal x.pkt.p2 x.done n) []
        else s.copyPiece x x.done n
      (x.opcode = 0x24 ∨ s.hostReach x.part = true →
        exec (.commandComplete h) s = .next ((w.1.complete x.h (if w.2 = true then stOk else stContained)).afterEnd))
      ∧ (x.opcode ≠ 0x24 → s.hostReach x.part = false → exec (.commandComplete h) s = .next ((s.holdHost x).afterEnd)))
    ∧ (∀ q, partOk q = true →
      ((s.prt q).state = .creating → (s.prt q).destroyAfter = false → Answers (.partCreateDone q) s (fun t =>
          ∃ w : State, t = w.startAll ∧ (w.prt q).state = (if (s.prt q).causes = [] then .active else .paused)))
      ∧ ((s.prt q).state = .destroying → Answers (.partDestroyDone q) s (fun t =>
          ∃ w : State, t = w.reserveRetry.settle.startAll ∧ w.prt q = Partition.reset ∧ (∀ g ∈ s.partSites q,
              w.core g = { Core.reset with sp := { Core.reset.sp with maps := (w.core g).sp.maps } })
            ∧ ∀ e ∈ w.hbm.owner, e.2 ≠ q)))

/-- R324, R328–R331, R464: at a tick a budget that was asked for is in force and the window has one ms less left; at a window
start nothing is spent and the new window is in force. A waiting command that is governed starts with its prediction when it
fits in the effective budget, and is deferred when it does not or in thermal hold (R334). -/
def Obligations.AccountingAndAdmission : Prop :=
  ∀ (s : State),
    (s.fwRuns = true → Answers .accountingTick s (fun t => ∃ w : State, t = w.startAll ∧ w.panel.ceilingW = w.ceilingNow
      ∧ KeepsPanelBytes s w ∧ ∀ q, q < 64 → (s.prt q).live = true → (w.prt q).budget = (s.prt q).budgetNext
          ∧ (w.prt q).left = (s.prt q).left - 1))
    ∧ (∀ q, partOk q = true → (s.prt q).live = true → s.fwRuns = true → Answers (.accountingWindow q) s (fun t =>
        ∃ w : State, t = w.startWaiting q ∧ (w.prt q).spent = 0 ∧ (w.prt q).window = (s.prt q).windowNext
          ∧ (w.prt q).left = (s.prt q).windowNext ∧ KeepsPanelBytes s w))
    ∧ ∀ q x, partOk q = true → s.handles.filter (fun h => h.target == q && h.state == .waiting) = [x] → s.handle x.h = some x →
        x.opcode = 0x24 → s.afterOk x = true → (s.prt q).state ≠ .paused →
        let e := s.predict x
        let fits := (s.prt q).spent + s.reserved q + min e (s.prt q).beff ≤ (s.prt q).beff
        (s.therm.hold = 0 → fits → Answers (.commandAdmit q) s (fun t => t = { s with handles := t.handles }
            ∧ ∃ y ∈ t.handles, y.h = x.h ∧ y.state = .running ∧ y.est = e))
        ∧ (s.therm.hold ≠ 0 ∨ ¬fits → Answers (.commandAdmit q) s (fun t => t = { s with handles := t.handles }
            ∧ ∃ y ∈ t.handles, y.h = x.h ∧ y.state = .waiting ∧ y.deferred = true))

/-- R283–R288, R308–R310, R489: doorbells move tails and heads within what the ring holds, others are counted; a ring's base is
taken while the ring is off and dropped, with CFG_LOCKED_WR, while it is on; a ring reset turns all rings off; a function's
turn takes commands of one ring; a completion interrupt clears what is unsignalled; links come up and go down, orphaning the
partitions bound there; a grace count that ends pauses or destroys the orphan. -/
def Obligations.RingsAndPorts : Prop :=
  ∀ (s : State) (p f : Nat), s.hasFunc p f = true →
    let bp := barPage p f
    let x := s.func p f
    let error := fun (t : State) => CountsSat s t bp FUNC_STATUS_DB_ERRORS 1 ∧ t.mem = s.mem ∧ t.func p f = x
    ((s.port p).up = true → s.fwRuns = true →
      (∀ r v, ringOk r = true →
        let size := ringSize (s.fld bp (SQ_CFG_LOG2SIZE r))
        let head := s.fld bp (SQ_CFG_HEAD r)
        let good := s.flag bp (SQ_CFG_ENABLE r) = true ∧ bits v 15 0 < size
          ∧ ringDist size head (x.sqTail.getD r 0) ≤ ringDist size head (bits v 15 0)
        (good → Answers (.sqTail p f r v) s (fun t => (t.func p f).sqTail.getD r 0 = bits v 15 0 ∧ t.mem = s.mem ∧ t.regs = s.regs))
          ∧ (¬good → Answers (.sqTail p f r v) s error)
          ∧ (s.flag bp (SQ_CFG_ENABLE r) = false → Answers (.ringCfgWrite p f (0x100 + 16 * r) v) s (fun t =>
              t.fld bp (SQ_BASE_W r) = bits v 63 12 ∧ t.mem = s.mem))
          ∧ (s.flag bp (SQ_CFG_ENABLE r) = true → bits v 63 12 ≠ s.fld bp (SQ_BASE_W r) →
              Answers (.ringCfgWrite p f (0x100 + 16 * r) v) s (fun t => t.fld bp (SQ_BASE_W r) = s.fld bp (SQ_BASE_W r)
                ∧ t.flag bp FUNC_STATUS_CFG_LOCKED_WR = true ∧ t.mem = s.mem)))
      ∧ (∀ v,
        let good := fun (en log tail : Fld) (old : Nat) => headOk (s.flag bp en) (s.fld bp log) old (s.fld bp tail) (bits v 15 0)
        (good RQ_CFG_ENABLE RQ_CFG_LOG2SIZE RQ_CFG_TAIL x.rqHead = true → Answers (.rqHead p f v) s (fun t =>
            (t.func p f).rqHead = bits v 15 0 ∧ t.mem = s.mem ∧ t.regs = s.regs))
          ∧ (good RQ_CFG_ENABLE RQ_CFG_LOG2SIZE RQ_CFG_TAIL x.rqHead = false → Answers (.rqHead p f v) s error)
          ∧ (good CQ_CFG_ENABLE CQ_CFG_LOG2SIZE CQ_CFG_TAIL x.cqHead = true → Answers (.cqHead p f v) s (fun t =>
            (t.func p f).cqHead = bits v 15 0 ∧ KeepsPanelBytes s t))
          ∧ (good LOG_CFG_ENABLE LOG_CFG_LOG2SIZE LOG_CFG_TAIL x.logHead = true → Answers (.logHead p f v) s (fun t =>
            (t.func p f).logHead = bits v 15 0 ∧ t.mem = s.mem ∧ t.regs = s.regs)))
      ∧ Answers (.ringReset p f) s (fun t => t.mem = s.mem ∧ (∀ i, i < 8 → t.flag bp (SQ_CFG_ENABLE i) = false
          ∧ t.fld bp (SQ_CFG_HEAD i) = 0) ∧ t.flag bp RQ_CFG_ENABLE = false ∧ t.flag bp CQ_CFG_ENABLE = false
          ∧ t.flag bp LOG_CFG_ENABLE = false ∧ (t.func p f).cqHead = 0 ∧ (t.func p f).sqTail = [])
      ∧ (∀ q, s.boundPart p f = some q → Answers (.functionLevelReset p f) s (fun t => (t.prt q).bound = false
          ∧ (t.prt q).orphaned = true ∧ t.flag bp FUNC_STATUS_RINGS_LOST = true)))
    ∧ (∀ i, (s.server p).isSome = true → (s.port p).up = true →
        ((List.range 64).map (fun j => ((s.port p).turn + j) % 64)).find?
          (fun f => 0 < s.rqRoom p f && (s.nextRing p f (s.func p f).cur).isSome) = some f → s.nextRing p f x.cur = some i →
        Answers (.commandFetch p) s (fun t => (t.port p).turn = (f + 1) % 64 ∧ (t.func p f).cur = (i + 1) % 8 ∧ t.mem = s.mem
          ∧ ∃ l, (t.func p f).inbox = x.inbox ++ l ∧ (∀ e ∈ l, e.ring = i ∧ e.late = none) ∧ l ≠ []))
    ∧ (x.unsignalled ≠ 0 → Answers (.cqInterrupt p f) s (fun t => (t.func p f).unsignalled = 0 ∧ t.mem = s.mem
        ∧ (bit (s.reg (bp + 0x2018) 0x100000000) 32 = false → (t.func p f).msix1 = x.msix1 + 1)))
    ∧ ((s.port p).up = false → (s.port p).answers = true → Answers (.hostLinkUp p) s (fun t => (t.port p).up = true
        ∧ KeepsPanelBytes s t))
    ∧ ((s.port p).up = true → Answers (.hostLinkDown p) s (fun t => (t.port p).up = false
        ∧ ∀ q, s.boundPart p f = some q → (t.prt q).bound = false ∧ (t.prt q).orphaned = true))
    ∧ ∀ q, partOk q = true → (s.prt q).causes = [] → (s.prt q).orphaned = true →
        ((s.prt q).policy = false → Answers (.orphanGraceExpire q) s (fun t => .orphan ∈ (t.prt q).causes))
        ∧ ((s.prt q).policy = true → (s.prt q).state ≠ .creating → Answers (.orphanGraceExpire q) s (fun t =>
            (t.prt q).state = .destroying))

/-! ## Errors, recovery and repair -/

/-- One more record has been numbered between s and t (R382). -/
def Records1 (s t : State) : Prop :=
  t.fld (domePage 4) ERR_STATUS_SEQNO = (s.fld (domePage 4) ERR_STATUS_SEQNO + 1) % 2 ^ 32

/-- A site keeps still. -/
def Still (t : State) (g : Nat) : Prop := (t.core g).seq ≠ .run ∧ (t.core g).seq ≠ .wait

/-- R118, R384–R391, R397, R408, R410, R423: an unresponsive sequencer, and a die out of reach on both nets, queue a contained
error with their cores stopped; one net alone is a corrected error. The next error is handled by its source; a storm's end is
recorded once fewer than 16 errors have come in a second, and ends its pauses; a drained recovery goes on to the restore; a commit gives every core that has not halted its
epoch and lets it run; a core's mirror holds its state at the EPOCH it waits at. A security alarm takes the panel out of READY;
like errors of a second are one record; progress is reported per partition and counted afresh. -/
def Obligations.ErrorsAreHandled : Prop :=
  ∀ (s : State),
    (∀ g, siteOk g = true → s.siteState g ≤ 1 → s.errKnown srcSiteLost g (dieOfSite g) = false → s.err.handling = none →
      Answers (.seqWatchdog g) s (fun t => Still t g
        ∧ ∃ e, (e ∈ t.err.queue ∨ e ∈ t.err.overflow) ∧ e.source = srcSiteLost ∧ e.site = g ∧ e.domain = 0))
    ∧ (∀ d, dieOk d = true →
      ∀ a b, let was := s.err.agents.getD d 0
        let now := was ||| (b2n a + 2 * b2n b)
        (was ≠ 3 → now = 3 → s.dieState d ≤ 2 → s.errKnown srcDieLost (16 * d) d = false → s.err.handling = none →
          Answers (.mgmtAgentLost d a b) s (fun t => (∀ i, i < 16 → Still t (16 * d + i))
            ∧ ∃ e, (e ∈ t.err.queue ∨ e ∈ t.err.overflow) ∧ e.source = srcDieLost ∧ e.die = d ∧ e.domain = 1))
        ∧ (was = 3 ∨ now ≠ 3 → Answers (.mgmtAgentLost d a b) s (fun t => t.cores = s.cores ∧ KeepsPanelBytes s t
            ∧ t.err.agents.getD d 0 = now)))
    ∧ (∀ e r, s.err.handling = none → s.err.queue = e :: r →
      let u := ({ s with err := { s.err with queue := r } } : State).admitErrs
      (e.source ≤ 3 → exec .errorHandlingStart s = .next ((u.faultEnd e.handle).logItem e 0 6 false e.detail).afterEnd)
      ∧ (e.source = srcHbmLost → exec .errorHandlingStart s = .next ((u.logItem e e.domain 0 false e.detail).resumeDomain e))
      ∧ (3 < e.source → e.source ≠ srcHbmLost →
          exec .errorHandlingStart s = .next (u.actHandling ⟨e, e.domain, false, 0, [], 0, 0, [], [], []⟩)))
    ∧ (∀ h, s.err.handling = some h → h.phase = 0 → exec .errorHandlingStart s = .next (s.actHandling h))
    ∧ (s.err.storm = true → s.err.queue = [] → s.err.overflow = [] →
      (s.err.arrivals.filter (fun t => s.ms < t + 1000)).length < 16 → Answers .stormEnd s (fun t => ∃ w : State, t = w.startAll
        ∧ w.err.storm = false ∧ Records1 s w ∧ KeepsPanelBytes s w ∧ ∀ q, q < 64 → .storm ∉ (w.prt q).causes))
    ∧ (∀ h, s.err.handling = some h → h.phase = 1 → s.therm.hold = 0 → (∀ j ∈ h.jobs, ∀ g ∈ s.jobSites j, s.unacked g = 0) →
        Answers .recoveryDrainEnd s (fun t => ∃ k, t.err.handling = some k ∧ k.phase = 2 ∧ k.jobs = h.jobs))
    ∧ (∀ h, s.err.handling = some h → h.phase = 2 → s.therm.hold = 0 →
        let r := s.mergeQueued h
        let x := r.1.takeOut r.2
        let w := h.jobs.foldl (fun s j => (s.jobSites j).foldl (fun s g => s.recoveryClear g) s) x.1
        let w : State := { w with err := { w.err with handling := none } }
        let v := h.jobs.foldl (fun s j => match s.handle j with
          | some x => if x.state == .running then s.restoreJob x else s
          | none => s) w
        exec .recoveryRestoreDone s = .next (v.finishHandling x.2))
    ∧ (∀ h x, s.handle h = some x → s.atCommit x = true → (s.openSites h).Nodup → s.err.expelling = [] → x.epoch + 1 < 2 ^ 64 →
        Answers (.epochCommit h) s (fun t => ∃ w : State, t = w.afterEnd ∧ ∀ g ∈ s.openSites h,
          w.fld (corePage g) EPOCH_REG_W = x.epoch + 1 ∧ (w.core g).pc = (s.core g).pc + 1 ∧ (w.core g).arrived = false
            ∧ (w.core g).stall = none ∧ (w.core g).c = (s.core g).c))
    ∧ (∀ g p, siteOk g = true → (s.core g).arrived = true → (s.core g).copied = false → s.partner (dieOfSite g) = some p →
        Answers (.mirrorCopyDone g) s (fun t => (t.core g).copied = true ∧ KeepsPanelBytes s t
          ∧ ∃ m, t.mirror.find (mirrorNew g) = some m ∧ m.partner = p ∧ m.epoch = s.fld (corePage g) EPOCH_REG_W + 1
              ∧ m.pc = (s.core g).pc + 1 ∧ m.c = (s.core g).c ∧ m.k = (s.core g).k ∧ m.trailerOk = true))
    ∧ Answers .securityAlarm s (fun t => t.boot.ready = false ∧ KeepsPanelBytes s t
        ∧ t.boot.resetPending = s.flag (domePage 4) ERR_CFG_UNCONT_RESET
        ∧ t.boot.held390 = !s.flag (domePage 4) ERR_CFG_UNCONT_RESET)
    ∧ (∀ a l n, s.err.coalesced.find? (fun e => e.1 == a && e.2.1 == l) = some (a, l, n) →
        (n = 0 → Answers (.logCoalesceFlush a l) s (fun t => t = { s with err := t.err }
          ∧ t.err.coalesced = s.err.coalesced.filter (fun e => !(e.1 == a && e.2.1 == l))))
        ∧ (0 < n → Answers (.logCoalesceFlush a l) s (fun t => Records1 s t ∧ KeepsPanelBytes s t ∧ t.cores = s.cores)))
    ∧ Answers .progressReport s (fun t => KeepsPanelBytes s t ∧ t.cores = s.cores ∧ ∀ q, q < 64 → (s.prt q).live = true →
        (t.prt q).activeMs = 0 ∧ (t.prt q).days = ((s.prt q).activeMs :: (s.prt q).days).take 29
          ∧ (t.prt q).lost = (s.prt q).lost.filter (fun e => s.ms - 2592000000 < e.2))

/-- R15, R31, R357, R392–R400, R405, R417, R418: scores decay by the hour; a die below the threshold is expelled when the limits
allow and a reserve stands, and goes on probation without one; failed units are retested in the dew state, 24 h after a test
they failed, and come back when they pass; a router's logic error preserves the routers once and resets the base die on recurrence; the end of that reset
brings it back or loses it; a dark block is restored and a half isolated; the surviving controller takes over the other half. -/
def Obligations.UnitsLeaveAndReturn : Prop :=
  ∀ (s : State),
    let rested := fun (k : Nat) => s.almVal k 0 = 0 ∨ s.err.retestAt.getD k 0 + 86400000 ≤ s.ms
    Answers .healthScoreHourly s (fun t => KeepsPanelBytes s t ∧ t.cores = s.cores ∧ t.alm.events =
      (s.alm.events.map (fun e => (e.1, e.2.1, e.2.2 + 1))).filter (fun e => decay168 e.2.2 != 0))
    ∧ (∀ d, dieOk d = true → d ∉ s.err.expelling →
      (s.expelScore ≤ s.score d → exec (.scoreExpulsion d) s = .next s)
      ∧ (s.dieState d = dieCounted → s.score d < s.expelScore → s.reserveOf (blockOf d) = none →
          Answers (.scoreExpulsion d) s (fun t => t.dieState d = dieProbation ∧ Records1 s t ∧ KeepsPanelBytes s t))
      ∧ (s.dieCounts d = true → s.score d < s.expelScore → (s.reserveOf (blockOf d)).isSome = true →
          s.expelFree (blockOf d) = true → s.err.waiting = [] → s.dieJobs d = [] →
          Answers (.scoreExpulsion d) s (fun t => t.dieState d = dieRetired)))
    ∧ (∀ g, siteOk g = true →
      (s.siteState g = siteFailedField → s.flag (spinePage (dieOfSite g)) TH_STATUS_DEW = true →
        s.almVal (almKey almRetest g) 0 < 3 → rested (almKey almRetest g) → Answers (.retestStart (.site g)) s (fun t => t = { s with alm := t.alm }
          ∧ t.siteState g = siteRetest))
      ∧ (s.siteState g = siteRetest →
        Answers (.retestDone (.site g) true) s (fun t => t.siteState g = (if s.rowCount g < 7 then siteCounted else siteSpare)
          ∧ KeepsPanelBytes s t)
        ∧ Answers (.retestDone (.site g) false) s (fun t => t.siteState g = siteFailedField
          ∧ t.almVal (almKey almRetest g) 0 = s.almVal (almKey almRetest g) 0 + 1 ∧ t.mem = s.mem)))
    ∧ (∀ d, dieOk d = true →
      (s.dieState d = dieRetired → s.dieParts d = [] → s.flag (spinePage d) TH_STATUS_DEW = true →
        s.almVal (almKey almRetest (8192 + d)) 0 < 3 → rested (almKey almRetest (8192 + d)) → Answers (.retestStart (.die d)) s (fun t => t.dieState d = dieRetest))
      ∧ (s.dieState d = dieRetest → Answers (.retestDone (.die d) false) s (fun t => t.dieState d = dieRetired
          ∧ t.almVal (almKey almRetest (8192 + d)) 0 = s.almVal (almKey almRetest (8192 + d)) 0 + 1)))
    ∧ (∀ u, u < 96 →
      (s.baseState u = 0 → u ∉ s.err.preserved → Answers (.routerLogicError u) s (fun t => u ∈ t.err.preserved
          ∧ ((∀ d ∈ baseDies u, s.dieState d ≠ dieRetired) → t.mem = s.mem ∧ t.cores = s.cores)))
      ∧ (s.baseState u = 0 → u ∈ s.err.preserved → Answers (.routerLogicError u) s (fun t => t.baseState u = 1
          ∧ u ∈ t.err.resetting))
      ∧ (u ∈ s.err.resetting →
          Answers (.baseDieResetDone u true) s (fun t => t.baseState u = 0 ∧ u ∉ t.err.resetting)
          ∧ (s.baseState u ≠ 2 → Answers (.baseDieResetDone u false) s (fun t => t.baseState u = 2 ∧ u ∉ t.err.resetting))))
    ∧ (∀ b, blockOk b = true → b ∈ s.power.darkBlocks → s.fwRuns = true → s.boot.ready = true →
        Answers (.blockRestore b) s (fun t => b ∉ t.power.darkBlocks ∧ t.panel.blockOnline.getLsbD b = true))
    ∧ (∀ i, s.fwRuns = true → s.fab.isolated ≠ i → i = true ∨ s.boot.trained = true → Answers (.halfIsolation i) s (fun t =>
        t.fab.isolated = i))
    ∧ (∀ m, ctlOk m = true → (s.boot.ctl m).running = true →
      Answers (.ctrlHeartbeat m) s (fun t => t = { s with boot := t.boot } ∧ (t.boot.ctl (1 - m)).heard = true)
      ∧ ((s.boot.ctl m).sole = false → (s.boot.ctl (1 - m)).restarting = false →
        ((∀ n ∈ ctlLinks (1 - m), s.claimOk n m = true) → Answers (.controllerTakeover m) s (fun t =>
          (t.boot.ctl m).sole = true ∧ (t.boot.ctl (1 - m)).running = false ∧ KeepsPanelBytes s t
            ∧ ∀ h, s.err.handling = some h → ∃ k, t.err.handling = some k ∧ k.phase = 0 ∧ k.jobs = h.jobs))
        ∧ ((∃ n ∈ ctlLinks (1 - m), s.claimOk n m = false) → Answers (.controllerTakeover m) s (fun t =>
          t.boot.ready = false ∧ KeepsPanelBytes s t))))

/-! ## Start-up, controllers, trust -/

/-- R349, R475: when the VPM disconnects its input every channel loses its output, the always-on group included, the contents of
scratchpads and HBM are lost with every core, command and partition, and the Almanacs are kept; when power is back the panel makes
a cold start, which raises the always-on group and both management dies. -/
def Obligations.InputLossEmptiesThePanel : Prop :=
  ∀ (s : State),
    (s.power.vpmIn = true → Answers .vpmInputFault s (fun t => t.power.vpmIn = false ∧ t.cores = [] ∧ t.handles = []
        ∧ t.parts = [] ∧ (∀ c, (t.chan c).on = false) ∧ t.alm = s.alm ∧ t.part = s.part
        ∧ (Memory.wf s.mem = true → ∀ z, memGet t.mem z = if 2 ^ 60 ≤ z then memGet s.mem z else 0#8)))
    ∧ (s.power.vpmIn = false → Answers .coldStart s (fun t => t.power.vpmIn = true ∧ (t.boot.ctl 0).powered = true
      ∧ (t.boot.ctl 1).powered = true ∧ t.part = s.part ∧ t.alm = s.alm ∧ (∀ n, n < 8 → (t.pcl n).up = true)
      ∧ (∀ c, c < 1616 → (t.chan c).on = (alwaysOn c && s.chFitted c))
      ∧ (Memory.wf s.mem = true → ∀ z, z < 2 ^ 60 → memGet t.mem z = 0#8)))

/-- R424–R427, R430, R434–R440: host ports answer out of reset; a boot ROM starts the active image that passes its checks, marks a pending one that does not report, and waits for a
recovery image when none passes; the halves rise, test and merge their Almanacs, links train, and the work map makes the panel
READY with every byte of its memories zero. That the steps of each row are one is the model's choice (log entry 22). -/
def Obligations.StartUpSteps : Prop :=
  ∀ (s : State),
    (∀ p, s.part.hasPort p = true →
      ((s.chan (1600 + 2 * p)).on = true → (s.chan (1601 + 2 * p)).on = true → (s.port p).lost = false →
        Answers (.pgoodAssert p) s (fun t => t = { s with ports := t.ports } ∧ (t.port p).pgood = true
          ∧ (t.port p).answers = !(s.port p).perst))
      ∧ Answers (.perstDeassert p) s (fun t => t = { s with ports := t.ports } ∧ (t.port p).perst = false
          ∧ (t.port p).answers = (s.port p).pgood)
      ∧ Answers (.perstAssert p) s (fun t => (t.port p).perst = true ∧ (t.port p).answers = false ∧ (t.port p).up = false))
    ∧ (∀ m, ctlOk m = true →
      let c := s.boot.ctl m
      (s.boot.resetPending = false → c.powered = true → c.running = false → c.pending = none →
        (∀ i, s.slotOk m c.activeB = some i → Answers (.romBoot m) s (fun t => (t.boot.ctl m).running = true
          ∧ (t.boot.ctl m).runB = c.activeB ∧ (t.boot.ctl m).version = i.version ∧ (t.boot.ctl m).stage = max c.stage 2
          ∧ (t.boot.ctl m).recovery = false))
        ∧ (s.slotOk m false = none → s.slotOk m true = none → Answers (.romBoot m) s (fun t =>
          (t.boot.ctl m).running = false ∧ (t.boot.ctl m).recovery = true)))
      ∧ (c.running = true → c.pending = some c.runB → c.restarting = true ∨ c.stage = 2 →
          Answers (.pendingImageTimeout m) s (fun t => ((t.boot.ctl m).slot c.runB).bad = true ∧ (t.boot.ctl m).pending = none))
      ∧ (∀ l, c.recovery = true → let i := imageOf (c.chunks ++ l)
          Answers (.romRecoveryImage m l false) s (fun t => t = { s with boot := t.boot }
            ∧ t.boot.ctl m = { c with chunks := c.chunks ++ l })
          ∧ (s.imageOk i = true → Answers (.romRecoveryImage m l true) s (fun t => t = { s with boot := t.boot }
              ∧ t.boot.ctl m = { c with chunks := [], slotA := ⟨some i, false⟩, recovery := false }))
          ∧ (s.imageOk i = false → Answers (.romRecoveryImage m l true) s (fun t => t = { s with boot := t.boot }
              ∧ t.boot.ctl m = { c with chunks := [] })))
      ∧ (∀ k, s.halfCtl m = some k → c.stage = 2 → Answers (.halfPowerUp m) s (fun t => (t.boot.ctl m).stage = 3 ∧ t.mem = s.mem
          ∧ ∀ ch, ch < 1616 → chLink ch / 4 = m → alwaysOn ch = false → s.chFitted ch = true →
            (s.pcl (chLink ch)).master = some k → ch / 50 ∉ s.power.darkBlocks → (t.chan ch).on = true))
      ∧ (∀ k l, s.halfCtl m = some k → c.stage = 3 → (∀ x ∈ l, failHalf x = m ∧ s.failFitted x = true) →
          Answers (.chainTest m l) s (fun t => t = { s with boot := t.boot } ∧ (t.boot.ctl m).stage = 4
            ∧ (t.boot.ctl m).tested = true ∧ t.boot.fails = s.boot.fails ++ l))
      ∧ (c.running = true → c.heard = false → c.sole = false → s.boot.ready = false → Answers (.soleTakeover m) s (fun t =>
          (t.boot.ctl m).sole = true ∧ (t.boot.ctl (1 - m)).stage = max (s.boot.ctl (1 - m)).stage 2 ∧ KeepsPanelBytes s t)))
    ∧ ((s.boot.ctl 0).stage = 4 → (s.boot.ctl 1).stage = 4 → s.fwRuns = true →
      ((∀ e ∈ s.almJoin.alm.copy0, e.2.ok = true) → Answers .almanacMerge s (fun t => (t.boot.ctl 0).stage = 5
          ∧ (t.boot.ctl 1).stage = 5 ∧ t.boot.mergedOk = true ∧ t.boot.fails = []))
      ∧ ((∃ e ∈ s.almJoin.alm.copy0, e.2.ok = false) → Answers .almanacMerge s (fun t => t.boot.ready = false
          ∧ KeepsPanelBytes s t)))
    ∧ (s.boot.mergedOk = true → s.boot.trained = false → Answers .linkTrain s (fun t => t.boot.trained = true
        ∧ (t.boot.ctl 0).stage = 6 ∧ (t.boot.ctl 1).stage = 6 ∧ t.fab.isolated = false ∧ KeepsPanelBytes s t))
    ∧ (s.boot.trained = true → s.boot.ready = false → (s.boot.ctl 0).stage = 6 → s.boot.debugRestart = false →
        s.boot.update = none → Answers .workMap s (fun t => t.boot.ready = true ∧ (t.boot.ctl 0).stage = 7
          ∧ (t.boot.ctl 1).stage = 7 ∧ t.hbm.built = true ∧ t.hbm.owner = [] ∧ t.poison = [] ∧ t.weak = []
          ∧ (Memory.wf s.mem = true → ∀ z, z < 2 ^ 60 → memGet t.mem z = 0#8)))

/-- R430, R435, R436, R451, R452: a controller that restarts stops and the other takes its half; once it runs again it takes it
back, and so does one that returns; an update's image that passes its checks stands in both non-active slots, one that does
not ends the update; an image that cannot be activated ends it too, and a panel restart for it empties the panel. -/
def Obligations.ControllersAndUpdates : Prop :=
  ∀ (s : State),
    (∀ m, ctlOk m = true →
      let c := s.boot.ctl m
      (s.restartDue m = true → c.running = true → c.restarting = false → Answers (.controllerRestart m) s (fun t =>
        (t.boot.ctl m).restarting = true ∧ (t.boot.ctl m).running = false ∧ KeepsPanelBytes s t
          ∧ ((s.boot.ctl (1 - m)).running = true → (t.boot.ctl (1 - m)).sole = true)))
      ∧ (c.restarting = true → c.running = true → Answers (.controllerRestartDone m) s (fun t =>
          (t.boot.ctl m).restarting = false ∧ KeepsPanelBytes s t))
      ∧ (c.running = true → c.restarting = false → (s.boot.ctl (1 - m)).sole = true → Answers (.controllerReturn m) s (fun t =>
          (t.boot.ctl (1 - m)).sole = false ∧ (t.boot.ctl m).heard = true ∧ (t.boot.ctl (1 - m)).heard = true
            ∧ t.alm.copy0 = t.alm.copy1 ∧ KeepsPanelBytes s t)))
    ∧ (∀ u, s.boot.update = some u → u.step = 1 → s.fwRuns = true → let i := s.updateImage u
        (s.imageOk i = true → Answers (.fwImageStaged u.handle) s (fun t => t = { s with boot := t.boot }
          ∧ t.boot.update = some { u with img := some i, step := 3 }
          ∧ ∀ m, m < 2 → (t.boot.ctl m).slot (!(s.boot.ctl m).activeB) = ⟨some i, false⟩
              ∧ (t.boot.ctl m).pending = some (!(s.boot.ctl m).activeB)))
        ∧ (s.imageOk i = false → Answers (.fwImageStaged u.handle) s (fun t => t.boot.update = none ∧ KeepsPanelBytes s t)))
    ∧ (∀ u i, s.boot.update = some u → u.img = some i → u.step = 3 → s.errBusy = false →
        (s.boot.held390 = false → s.fwVersion.toNat < i.peerMin.toNat → u.restart = false →
          Answers .fwActivate s (fun t => t.boot.update = none ∧ KeepsPanelBytes s t))
        ∧ (s.boot.held390 = true → Answers .fwActivate s (fun t => t.boot.update = some { u with step := 5 } ∧ t.parts = []
            ∧ t.cores = [] ∧ t.boot.ready = false ∧ (t.boot.ctl 0).powered = true ∧ (t.boot.ctl 0).running = false)))

/-- R428, R433, R443–R445, R449: SPDM requests are answered in their order: versions, capabilities, algorithms, then digests,
certificates, signed challenges and measurements; one out of order is answered UnexpectedRequest and one not offered
UnsupportedRequest. The test port shows IDCODE and BYPASS. The numeric codes are presumed from DSP0274 (log entry 32). -/
def Obligations.AttestationAndTestPort : Prop :=
  ∀ (s : State),
    (∀ p m, s.part.hasPort p = true → s.server p = some m → (s.port p).answers = true →
      let x := s.spdm.getD p Spdm.reset
      let c := s.boot.ctl m
      let y := fun (t : State) => t.spdm.getD p Spdm.reset
      let only := fun (t : State) => t = { s with spdm := t.spdm, free := t.free }
      let early := fun (i : Instr) => Answers i s (fun t => only t ∧ y t = { x with response := spdmError spdmUnexpected 0 })
      Answers (.getVersion p) s (fun t => only t ∧ (y t).version = true ∧ (y t).caps = false ∧ (y t).algs = false
          ∧ (y t).response = [0x04, 0, 0, 0, 2, 0x00, 0x12, 0x00, 0x13])
      ∧ (x.version = false → early (.getCapabilities p)) ∧ (x.caps = false → early (.negotiateAlgorithms p))
      ∧ (x.algs = false → early (.getDigests p) ∧ (∀ a b d, early (.getCertificate p a b d)) ∧ (∀ n, early (.challenge p n))
          ∧ ∀ a n, early (.getMeasurements p a n))
      ∧ (x.version = true → Answers (.getCapabilities p) s (fun t => only t ∧ (y t).caps = true ∧ (y t).algs = x.algs))
      ∧ (x.caps = true → Answers (.negotiateAlgorithms p) s (fun t => only t ∧ (y t).algs = true))
      ∧ (∀ k, Answers (.spdmUnsupported p k) s (fun t => only t ∧ (y t).response = spdmError spdmNotSupported k
          ∧ (y t).algs = x.algs))
      ∧ (x.algs = true →
        Answers (.getDigests p) s (fun t => only t ∧ t.free = s.free ∧ (y t).response = [0x01, 0, 3]
            ++ nats (digestBytes (sha384 (c.chain 0))) ++ nats (digestBytes (sha384 (c.chain 1))))
        ∧ (∀ k o n, k < 2 → o ≤ (c.chain k).length → Answers (.getCertificate p k o n) s (fun t =>
            let part := sliceBytes (c.chain k) o (min n 65535)
            only t ∧ (y t).response = [0x02, k, 0] ++ leNats part.length 2 ++ leNats ((c.chain k).length - o - part.length) 2
              ++ nats part))
        ∧ (∀ k o n, 1 < k ∨ (c.chain k).length < o → Answers (.getCertificate p k o n) s (fun t =>
            only t ∧ (y t).response = spdmError spdmInvalid 0))
        ∧ (∀ n, Answers (.challenge p n) s (fun t => only t ∧ t.free = s.free + 4 ∧ ∃ sig : List Nat, sig.length = 3374
            ∧ (y t).response = [0x03, 0, 1] ++ nats (digestBytes (sha384 (c.chain 0))) ++ s.spdmNonce ++ sig))
        ∧ (∀ i n, 1 ≤ i → i ≤ 5 → Answers (.getMeasurements p i n) s (fun t => only t ∧ t.free = s.free + 4
            ∧ ∃ sig : List Nat, sig.length = 3374 ∧ (y t).response = [0x60, 0, 0, 1]
              ++ leNats (s.measure c (s.boot.ctl (1 - m)) i).length 3 ++ s.measure c (s.boot.ctl (1 - m)) i ++ s.spdmNonce ++ sig))
        ∧ (∀ i n, 5 < i → i ≠ 255 → Answers (.getMeasurements p i n) s (fun t => only t
            ∧ (y t).response = spdmError spdmInvalid 0))))
    ∧ (s.boot.c0.powered = true →
      Answers (.tapAccess .idcode) s (fun t => t = { s with boot := { s.boot with tdo := s.idcode } })
      ∧ (∀ b, Answers (.tapAccess (.bypass b)) s (fun t => t = { s with boot := { s.boot with tdo := BitVec.ofNat 32 (b2n b) } }))
      ∧ (∀ i b, s.boot.tapOpen = false → Answers (.tapAccess (.other i b)) s (fun t =>
          t = { s with boot := { s.boot with tdo := BitVec.ofNat 32 (b2n b) } }))
      ∧ (∀ i b, s.boot.tapOpen = true → Answers (.tapAccess (.other i b)) s (fun t => t.boot.tapMaster = true
          ∧ t = { s with boot := t.boot, free := s.free + 1 })))

/-! ## The facility port -/

/-- Channel c hears a frame whose counter is one to four ahead of the last (R459). -/
def InStep (s : State) (c : Nat) (a : BitVec 8) : Prop :=
  facOk c = true ∧ s.facHears c = true ∧ (s.facCh c).base = false ∧ 1 ≤ (a - (s.facCh c).last).toNat
    ∧ (a - (s.facCh c).last).toNat ≤ 4

/-- R458–R465: a frame whose counter is in step is accepted and acted on: flow, temperatures, ceiling, backup, stop and
heartbeat; one that is malformed is counted BAD, one with the last counter REPEATS and one far off REJECTS, each without
effect. Silence for 500 ms is held for 5 s, after which the safe ceiling is in force. -/
def FacilityFramesRule : Prop :=
  ∀ (s : State) (c : Nat) (a : BitVec 8),
    let bp := domePage 4
    (InStep s c a → s.fwRuns = true →
      let fresh := fun (k : Nat) => s.fac.acted.find (256 * k + a.toNat) = none
      (∀ v, fresh 3 → Answers (.facFlow c a v) s (fun t => t.fld bp FAC_VALUES_FLOW = v.toNat ∧ t.fac.haveFlow = true
          ∧ (v.toNat < 360 → s.fac.silent = false → t.therm.hold ≠ 0) ∧ (t.facCh c).last = a ∧ t.mem = s.mem))
      ∧ (∀ v, fresh 2 → Answers (.facCeiling c a v) s (fun t => t.fac.ceilNext = some (max 1200 (min 12000 v.toNat))
          ∧ t.fld bp FAC_VALUES_CEILING_W = max 1200 (min 12000 v.toNat) ∧ (t.facCh c).last = a ∧ t.mem = s.mem))
      ∧ (∀ v, fresh 4 → Answers (.facInletTemp c a v) s (fun t => t.fld bp FAC_VALUES_TIN = v.toNat % 65536
          ∧ t.fld bp FAC_VALUES_TOUT = v.toNat / 65536 ∧ t.fac.haveTemp = true ∧ (t.facCh c).last = a ∧ t.mem = s.mem))
      ∧ (∀ v, fresh 5 → v.toNat / 2 ^ 18 % 64 = 0 → Answers (.facVpmStatus c a v) s (fun t =>
          t.fac.onBackup = (v.toNat / 2 ^ 16 % 2 == 1) ∧ t.fld bp FAC_STATUS_BACKUP_S = v.toNat / 2 ^ 24
            ∧ t.panel.ceilingW = t.ceilingNow ∧ KeepsPanelBytes s t))
      ∧ (∀ v, fresh 8 → v.toNat < 3 → 0 < v.toNat → s.fac.estop < v.toNat → s.therm.hold ≠ 2 →
          Answers (.facEstop c a v) s (fun t => t.fac.estop = v.toNat ∧ t.therm.hold ≠ 0 ∧ t.mem = s.mem))
      ∧ (∀ v, 3 ≤ v.toNat → Answers (.facEstop c a v) s (fun t => t.fac.estop = s.fac.estop ∧ t.therm = s.therm
          ∧ CountsSat s t bp (FAC_CH_BAD c) 1 ∧ t.mem = s.mem))
      ∧ (∀ v, fresh 1 → bits v 30 26 = 0 → bits v 63 38 = 0 → Answers (.facHeartbeat c a v) s (fun t =>
          t.fac.rack = v.toNat % 65536 ∧ t.fac.silent = false ∧ (s.fac.silent = true → t.panel.facilityUp = true)
            ∧ KeepsPanelBytes s t)))
    ∧ (InStep s c a → Answers (.facFrameMalformed c a) s (fun t => (t.facCh c).last = a ∧ CountsSat s t bp (FAC_CH_BAD c) 1
        ∧ t.mem = s.mem ∧ t.cores = s.cores))
    ∧ (facOk c = true → s.facHears c = true → (s.facCh c).base = false → (s.facCh c).last = a → ∀ (v : W32) (f : BitVec 16)
          (e : BitVec 8) (h : W64),
        ∀ i, i = .facFlow c a f ∨ i = .facCeiling c a v ∨ i = .facInletTemp c a v ∨ i = .facVpmStatus c a v
            ∨ i = .facEstop c a e ∨ i = .facHeartbeat c a h ∨ i = .facFrameMalformed c a →
          Answers i s (fun t => t = { s with regs := t.regs } ∧ CountsSat s t bp (FAC_CH_REPEATS c) 1))
    ∧ (facOk c = true → s.facHears c = true → (s.facCh c).base = false → 4 < (a - (s.facCh c).last).toNat → ∀ v,
        Answers (.facFlow c a v) s (fun t => (t.facCh c).last = (s.facCh c).last ∧ CountsSat s t bp (FAC_CH_REJECTS c) 1
          ∧ t.fac.haveFlow = s.fac.haveFlow ∧ t.fld bp FAC_VALUES_FLOW = s.fld bp FAC_VALUES_FLOW))
    ∧ (facOk c = true → s.facHears c = true → Answers (.facFrameCrcError c) s (fun t => t = { s with regs := t.regs }
        ∧ CountsSat s t bp (FAC_CH_CRC_ERR c) 1))
    ∧ (facOk c = true → Answers (.facChannelDown c) s (fun t => t = { s with fac := t.fac } ∧ (t.facCh c).up = false
        ∧ (t.facCh c).base = true ∧ (t.facCh c).last = (s.facCh c).last))
    ∧ (s.fac.silent = false → s.fwRuns = true → Answers .facilitySilent s (fun t => t.fac.silent = true ∧ t.fac.held = true
        ∧ t.panel.facilityUp = false ∧ KeepsPanelBytes s t))
    ∧ (s.fac.silent = true → s.fac.held = true → Answers .silentHoldEnd s (fun t => t.fac.held = false ∧ t.fac.safe = true
        ∧ t.therm.ceilFormed = false ∧ t.panel.ceilingW = t.ceilingNow ∧ KeepsPanelBytes s t))

/-- R460, R461: each frame the panel sends takes the next counter, and changes nothing else: HEARTBEAT, PANEL_STATUS with the
measured power, PRECOOL with the request that stands. -/
def PanelFramesAreSentRule : Prop :=
  ∀ (s : State), s.fwRuns = true →
    let n := (s.fac.txCount + 1#8).toNat
    let sends := fun (t : State) (type v : Nat) => t = { s with fac := t.fac } ∧ t.fac.txCount = s.fac.txCount + 1#8
      ∧ t.fac.sent.find type = some (n, v)
    Answers .panelHeartbeat s (fun t => sends t 1 (b2n s.boot.ready + 2 * b2n s.isSole + 4 * s.sender + 8 * b2n (s.therm.hold != 0)))
    ∧ Answers .panelStatus s (fun t => ∃ v, sends t 7 v ∧ v % 2 ^ 16 = min 65535 s.therm.measuredW)
    ∧ (∀ f i l w, s.therm.precool = some (f, i, l, w) → Answers .precool s (fun t =>
        sends t 6 (f + i * 2 ^ 16 + l * 2 ^ 32 + min 65535 (w / 10) * 2 ^ 48)))
    ∧ (∀ k v, s.therm.precool = none → s.fac.sent.find 6 = some (k, v) → v % 65536 ≠ 0 → Answers .precool s (fun t =>
        sends t 6 (0x8000 * 2 ^ 16)))

/-- R458–R465, R460, R461: `FacilityFramesRule` and `PanelFramesAreSentRule`. -/
def Obligations.FacilityPort : Prop := FacilityFramesRule ∧ PanelFramesAreSentRule

/-! ## Check units, registers, the queue -/

/-- R466, R467, R471: GO starts a scan whose configuration is legal and refuses another with ERROR 3; ABORT ends one; its end
shows the CRC, the failed blocks and whether every byte was reached; a compute die's unit stands still in thermal hold (R338). -/
def Obligations.CheckUnitsScan : Prop :=
  ∀ (s : State) (u : Nat), chkOk u = true →
    let k := chkPage u
    let shows := fun (t : State) (err done busy : Nat) => t.fld k CHK_STATUS_ERROR = err ∧ t.fld k CHK_STATUS_DONE = done
      ∧ t.fld k CHK_STATUS_BUSY = busy
    (s.chkBusy u = false → s.chkOkCfg u = true → Answers (.chkGo u) s (fun t => shows t 0 0 1
        ∧ t = { s with regs := t.regs, chk := t.chk }))
    ∧ (s.chkBusy u = false → s.chkOkCfg u = false → Answers (.chkGo u) s (fun t => shows t 3 0 0 ∧ t = { s with regs := t.regs }))
    ∧ (s.chkBusy u = true → exec (.chkGo u) s = .next s)
    ∧ (s.chkBusy u = true → Answers (.chkAbort u) s (fun t => shows t 0 1 0 ∧ t = { s with regs := t.regs, chk := t.chk }))
    ∧ (s.chkBusy u = true → u < 384 → 2 ≤ s.therm.hold → exec (.chkScanDone u) s = .next s)
    ∧ (s.chkBusy u = true → 384 ≤ u ∨ s.therm.hold < 2 →
        let q := s.fld k CHK_CFG_PART
        let mode := s.fld k CHK_CFG_MODE
        let r := s.scan (s.chkAt q) q (s.fld k CHK_CFG_POLY) mode (s.fld k CHK_CFG_BLKLEN) (s.chkCtx u (s.fld k CHK_CFG_CTX))
          (BitVec.ofNat 64 (s.fld k CHK_ADDR_W)) (s.fld k CHK_LEN_LEN)
        Answers (.chkScanDone u) s (fun t => shows t (if r.2.2.2.2 = true then 0 else 1) 1 0
          ∧ t.reg (k + 0x20) 0 = BitVec.ofNat 64 r.2.1.crc ∧ (t.flag k CHK_STATUS_MISMATCH = true ↔ r.2.1.bad ≠ 0)
          ∧ t.fld k CHK_STATUS_POISONED = min r.2.2.1 0xFFFF ∧ (mode = 0 → KeepsPanelBytes s t)))

/-- R9–R13, R122, R216, R228, R282, R336, R358, R471: a write of a register that acts is that command; one of a Live field takes
its value; a new preference switches a good reference; a slice has no register; a read of an offset with no register shows zero. -/
def Obligations.RegisterWritesAct : Prop :=
  ∀ (s : State),
    (∀ g, siteOk g = true →
      exec (.regWrite (.core g 0x408) 1#64) s = exec (.seqStart g) s ∧ exec (.regWrite (.core g 0x408) 2#64) s = exec (.seqResume g) s
      ∧ exec (.regWrite (.core g 0x408) 4#64) s = exec (.seqStop g) s ∧ exec (.regWrite (.core g 0x408) 8#64) s = exec (.seqRstart g) s
      ∧ exec (.regWrite (.core g 0x7F8) 1#64) s = exec (.zeroise g) s ∧ exec (.regWrite (.core g 0x7F8) 2#64) s = exec (.ceClear g) s
      ∧ ∀ v, Answers (.regWrite (.core g 0x488) v) s (fun t => t.fld (corePage g) (LIVE_START 0) = bits v 63 46
          ∧ t.fld (corePage g) (LIVE_LEN 0) = bits v 45 28 ∧ t.mem = s.mem))
    ∧ (∀ d, dieOk d = true →
      exec (.regWrite (.cache d 0) 2#64) s = exec (.invAll d) s ∧ exec (.regWrite (.cache d 0) 1#64) s = exec (.invPart d 127) s
      ∧ exec (.regWrite (.spine d 0xF528) 1#64) s = exec (.chkGo d) s
      ∧ exec (.regWrite (.spine d 0xF528) 2#64) s = exec (.chkAbort d) s
      ∧ ∀ v, bit v 1 = false →
          let x := s.ref d
          let moves := x.holdover = false ∧ x.useB ≠ bit v 0 ∧ x.okOf (bit v 0) = true
          Answers (.regWrite (.spine d 0xF308) v) s (fun t => t.fld (spinePage d) CLK_CFG_IDLE_US = bits v 63 48
            ∧ t.flag (spinePage d) CLK_CFG_FORCE_RUN = false ∧ t.prefB d = bit v 0
            ∧ (moves → t.ref d = { x with useB := bit v 0 } ∧ KeepsPanelBytes s t)
            ∧ (¬moves → t = { s with regs := t.regs, shadow := t.shadow })))
    ∧ (∀ p f v, s.hasFunc p f = true →
      exec (.regWrite (.bar p f 0x1040) v) s = exec (.rqHead p f v) s ∧ exec (.regWrite (.bar p f 0x1048) v) s = exec (.cqHead p f v) s
      ∧ exec (.regWrite (.bar p f 0x1050) v) s = exec (.logHead p f v) s
      ∧ exec (.regWrite (.bar p f 0x48) 1#64) s = exec (.ringReset p f) s
      ∧ ∀ r, ringOk r = true → exec (.regWrite (.bar p f (0x1000 + 8 * r)) v) s = exec (.sqTail p f r v) s)
    ∧ (∀ n o v, n < 64 → o < 0x100000 → s.part.hasStack n = true → exec (.regWrite (.slicectl n o) v) s = .next s)
    ∧ (∀ n o, s.readReg (.slicectl n o) = 0#64)
    ∧ (∀ d o, RegAddr.find (.spine d o) = none → o ≠ 0xF310 → (o < 0xF200 ∨ 0xF218 ≤ o) → s.readReg (.spine d o) = 0#64)

/-- A step takes the command at the front of the queue and runs it on the state with the queue's rest; on an empty queue a cycle
of the always-on clock passes (R342; that it does is the model's choice, log entry 5). No word spells a command: the table gives
no bits. -/
def Obligations.StepTakesTheFrontCommand : Prop :=
  (∀ (s : State) (c : Instr) (r : List Instr), s.pending = c :: r → step s = exec c { s with pending := r })
    ∧ (∀ s : State, s.pending = [] → step s = .next (tick s))
    ∧ (∀ s : State, s.boot.resetPending = false → s.power.vpmIn = false → tick s = s)
    ∧ (∀ s : State, s.boot.resetPending = false → s.power.vpmIn = true → (tick s).power.aon = s.power.aon + 1)
    ∧ (∀ n w, decodeTableWord n w = none) ∧ ∀ (s : State) n w, s.withFetchWord n w = s

/-- R4, R51, R121, R122, R193, R336, R464: what the spec gives for reset: every core IDLE and unassigned, its banks owned by the
sequencer, its generators seeded with 1, no error and no partition, the safe facility ceiling of 4,800 W in force, no
administrator, not READY, debug locked. -/
def Obligations.ResetValues : Prop :=
  let s := State.reset
  (∀ g, (s.core g).seq = .idle ∧ (s.core g).part = 127 ∧ (s.core g).pc = 0 ∧ (s.core g).mac.gen = 1#64
      ∧ (s.core g).vec.gen = 1#64 ∧ (s.core g).edge.gen = 1#64 ∧ (∀ i, (s.core g).reg i = 0#64) ∧ (∀ i, (s.core g).kVal i = 0#16))
    ∧ (∀ g b, b < 24 → s.owner g b = ownSeq) ∧ s.fld (corePage 0) MAC_SEED_W = 1 ∧ s.fld (spinePage 0) CLK_STATUS_F_CODE = 0x20
    ∧ s.fld (domePage 4) ERR_CFG_EXPEL_SCORE = 400 ∧ s.ceilingNow = 4800 ∧ s.panel.ceilingW = 4800 ∧ s.fac.silent = true
    ∧ s.fac.safe = true ∧ (∀ q, (s.prt q).state = .free ∧ (s.prt q).grace = 60000) ∧ s.handles = [] ∧ s.panel.admin = none
    ∧ s.boot.ready = false ∧ s.boot.unlocked = false ∧ s.err.queue = [] ∧ s.err.handling = none ∧ s.pending = []
    ∧ ∀ a, memGet s.mem a = 0#8

/-- The state after reset is safe: its memory and its register file are in canonical form. -/
def Obligations.ResetIsSafe : Prop := State.reset.safe = true

/-- Every step keeps the memory and the register file in canonical form, whatever the command. -/
def Obligations.StepKeepsSafe : Prop := ∀ s t : State, s.safe = true → step s = .next t → t.safe = true

/-- R96, R122: a sequencer instruction of one core leaves the general registers, the counters and the PC of every other core as
they are, whether it retires, stalls or faults. -/
def Obligations.OtherCoresKeepTheirRegisters : Prop :=
  ∀ (s t : State) (g h : Nat) (a b c : BitVec 5) (x : BitVec 9) (imm : W32) (i : Instr), h ≠ g →
    (i = .add g a b c ∨ i = .mul g a b c ∨ i = .addi g a b imm ∨ i = .shli g a b imm ∨ i = .li g a imm ∨ i = .beq g a b imm
      ∨ i = .jal g a imm ∨ i = .jalr g a b imm ∨ i = .ld g a b x imm ∨ i = .st g a b x imm ∨ i = .wait g b x imm
      ∨ i = .ksub g b x imm ∨ i = .krd g a x ∨ i = .nop g ∨ i = .fence g x ∨ i = .halt g ∨ i = .epoch g ∨ i = .csrr g a imm
      ∨ i = .issueMac g b imm ∨ i = .issueDma g b imm) →
    exec i s = .next t → (t.core h).c = (s.core h).c ∧ (t.core h).k = (s.core h).k ∧ (t.core h).pc = (s.core h).pc
end

