-- ==== Sys2Proof/Laws/Tab.lean ====
section
/-! SUPPORT. The laws of sparse tables: what a table shows after each of its operations, and that each keeps the keys
rising. -/

namespace Sys2Proof.Machine

theorem Tab.sorted_cons {α : Type} (j : Nat) (v : α) (r : Tab α) :
    Tab.sorted ((j, v) :: r) = true ↔ (∀ e ∈ r, j < e.1) ∧ Tab.sorted r = true := by
  simp [Tab.sorted, List.all_eq_true]

/-- A key below every listed one shows nothing. -/
theorem Tab.find_below {α : Type} (t : Tab α) (k : Nat) (h : ∀ e ∈ t, k < e.1) : Tab.find t k = none := by
  cases t with
  | nil => rfl
  | cons e r =>
    have : k < e.1 := h e (by simp)
    obtain ⟨j, v⟩ := e
    simp only [Tab.find]
    rw [if_neg (by simp at this; omega), if_pos this]

/-- A table shows v at k after v is set there. -/
@[simp] theorem Tab.find_set_same {α : Type} (t : Tab α) (k : Nat) (v : α) : Tab.find (Tab.set t k v) k = some v := by
  induction t with
  | nil => simp [Tab.set, Tab.find]
  | cons e r ih =>
    obtain ⟨j, w⟩ := e
    simp only [Tab.set]
    split
    · simp [Tab.find]
    · split
      · simp [Tab.find]
      · simp only [Tab.find]
        rw [if_neg ‹_›, if_neg ‹_›, ih]

/-- Every other key shows what it showed. -/
theorem Tab.find_set_other {α : Type} (t : Tab α) {k i : Nat} (v : α) (h : i ≠ k) :
    Tab.find (Tab.set t k v) i = Tab.find t i := by
  induction t with
  | nil => simp [Tab.set, Tab.find, Ne.symm h]
  | cons e r ih =>
    obtain ⟨j, w⟩ := e
    simp only [Tab.set]
    split
    · rename_i hj
      subst hj
      simp [Tab.find, Ne.symm h]
    · split
      · simp only [Tab.find]
        rw [if_neg (Ne.symm h)]
        split
        · rw [if_neg (by omega), if_pos (by omega)]
        · rfl
      · simp only [Tab.find, ih]

theorem Tab.getD_set {α : Type} (t : Tab α) (k i : Nat) (v d : α) :
    Tab.getD (Tab.set t k v) i d = if i = k then v else Tab.getD t i d := by
  unfold Tab.getD
  split
  · subst_vars; simp
  · rw [Tab.find_set_other t v ‹_›]

@[simp] theorem Tab.getD_set_same {α : Type} (t : Tab α) (k : Nat) (v d : α) : Tab.getD (Tab.set t k v) k d = v := by
  simp [Tab.getD_set]

theorem Tab.getD_set_other {α : Type} (t : Tab α) {k i : Nat} (v d : α) (h : i ≠ k) :
    Tab.getD (Tab.set t k v) i d = Tab.getD t i d := by simp [Tab.getD_set, h]

theorem Tab.mem_set {α : Type} (t : Tab α) (k : Nat) (v : α) (e : Nat × α) (h : e ∈ Tab.set t k v) : e = (k, v) ∨ e ∈ t := by
  induction t with
  | nil => simpa [Tab.set] using h
  | cons f r ih =>
    obtain ⟨j, w⟩ := f
    simp only [Tab.set] at h
    split at h
    · rcases List.mem_cons.1 h with h | h
      · exact .inl h
      · exact .inr (List.mem_cons_of_mem _ h)
    · split at h
      · rcases List.mem_cons.1 h with h | h
        · exact .inl h
        · exact .inr h
      · rcases List.mem_cons.1 h with h | h
        · exact .inr (by simp [h])
        · exact (ih h).imp id (List.mem_cons_of_mem _)

/-- Setting keeps the keys rising. -/
theorem Tab.sorted_set {α : Type} (t : Tab α) (k : Nat) (v : α) (h : Tab.sorted t = true) : Tab.sorted (Tab.set t k v) = true := by
  induction t with
  | nil => rfl
  | cons e r ih =>
    obtain ⟨j, w⟩ := e
    obtain ⟨hj, hr⟩ := (Tab.sorted_cons j w r).1 h
    simp only [Tab.set]
    split
    · subst_vars
      exact (Tab.sorted_cons _ _ _).2 ⟨hj, hr⟩
    · split
      · refine (Tab.sorted_cons _ _ _).2 ⟨?_, h⟩
        intro e he
        rcases List.mem_cons.1 he with rfl | he
        · assumption
        · exact lt_trans ‹k < j› (hj e he)
      · refine (Tab.sorted_cons _ _ _).2 ⟨?_, ih hr⟩
        intro e he
        rcases Tab.mem_set r k v e he with rfl | he
        · exact lt_of_le_of_ne (by omega) ‹_›
        · exact hj e he

theorem Tab.sorted_filter {α : Type} (t : Tab α) (p : Nat × α → Bool) (h : Tab.sorted t = true) :
    Tab.sorted (t.filter p) = true := by
  induction t with
  | nil => rfl
  | cons e r ih =>
    obtain ⟨j, w⟩ := e
    obtain ⟨hj, hr⟩ := (Tab.sorted_cons j w r).1 h
    simp only [List.filter_cons]
    split
    · exact (Tab.sorted_cons _ _ _).2 ⟨fun e he => hj e (List.mem_of_mem_filter he), ih hr⟩
    · exact ih hr

theorem Tab.sorted_erase {α : Type} (t : Tab α) (k : Nat) (h : Tab.sorted t = true) : Tab.sorted (Tab.erase t k) = true :=
  Tab.sorted_filter t _ h

theorem Tab.sorted_eraseRange {α : Type} (t : Tab α) (lo hi : Nat) (h : Tab.sorted t = true) :
    Tab.sorted (Tab.eraseRange t lo hi) = true := Tab.sorted_filter t _ h

theorem Tab.sorted_sets {α : Type} (l t : Tab α) (h : Tab.sorted t = true) :
    Tab.sorted (l.foldl (fun t e => Tab.set t e.1 e.2) t) = true := by
  induction l generalizing t with
  | nil => exact h
  | cons e r ih => exact ih _ (Tab.sorted_set t e.1 e.2 h)

theorem Tab.sorted_replaceRange {α : Type} (t : Tab α) (lo hi : Nat) (l : Tab α) (h : Tab.sorted t = true) :
    Tab.sorted (Tab.replaceRange t lo hi l) = true := Tab.sorted_sets l _ (Tab.sorted_eraseRange t lo hi h)

theorem Tab.sorted_mapVals {α : Type} (t : Tab α) (f : Nat → α → α) (h : Tab.sorted t = true) :
    Tab.sorted (Tab.mapVals t f) = true := by
  induction t with
  | nil => rfl
  | cons e r ih =>
    obtain ⟨j, w⟩ := e
    obtain ⟨hj, hr⟩ := (Tab.sorted_cons j w r).1 h
    refine (Tab.sorted_cons _ _ _).2 ⟨?_, ih hr⟩
    intro e he
    obtain ⟨x, hx, rfl⟩ := List.mem_map.1 he
    exact hj x hx

/-- Keeping only the keys that p accepts leaves those as they were and nothing at the others. -/
theorem Tab.find_filter_key {α : Type} (t : Tab α) (p : Nat → Bool) (k : Nat) (h : Tab.sorted t = true) :
    Tab.find (t.filter (fun e => p e.1)) k = if p k = true then Tab.find t k else none := by
  induction t with
  | nil => simp [Tab.find]
  | cons e r ih =>
    obtain ⟨j, w⟩ := e
    obtain ⟨hj, hr⟩ := (Tab.sorted_cons j w r).1 h
    have below : j = k ∨ k < j → Tab.find (r.filter (fun e => p e.1)) k = none := fun hk =>
      Tab.find_below _ _ (fun e he => by
        have := hj e (List.mem_of_mem_filter he)
        omega)
    by_cases hp : p j = true
    · simp only [List.filter_cons, hp, if_true, Tab.find]
      split
      · subst_vars; simp [hp]
      · split
        · simp
        · exact ih hr
    · simp only [List.filter_cons, hp, Bool.false_eq_true, if_false, Tab.find]
      by_cases hjk : j = k
      · rw [below (.inl hjk), if_neg (hjk ▸ hp)]
      · rw [if_neg hjk]
        by_cases hkj : k < j
        · rw [below (.inr hkj), if_pos hkj]
          simp
        · rw [if_neg hkj]
          exact ih hr

theorem Tab.find_erase {α : Type} (t : Tab α) (k i : Nat) (h : Tab.sorted t = true) :
    Tab.find (Tab.erase t k) i = if i = k then none else Tab.find t i := by
  unfold Tab.erase
  rw [Tab.find_filter_key t (fun j => j != k) i h]
  by_cases hi : i = k <;> simp [hi]

theorem Tab.find_eraseRange {α : Type} (t : Tab α) (lo hi i : Nat) (h : Tab.sorted t = true) :
    Tab.find (Tab.eraseRange t lo hi) i = if lo ≤ i ∧ i < hi then none else Tab.find t i := by
  unfold Tab.eraseRange
  rw [Tab.find_filter_key t (fun j => decide (j < lo) || decide (hi ≤ j)) i h]
  by_cases hi' : lo ≤ i ∧ i < hi
  · rw [if_pos hi', if_neg (by simp; omega)]
  · rw [if_neg hi', if_pos (by simp; omega)]

end Sys2Proof.Machine
end

