-- ==== Sys2Proof/Laws/Memory.lean ====
section
/-! SUPPORT. The laws of memory: every operation keeps the canonical form, a read after a write shows what was written, and
every other byte shows what it showed. -/

namespace Sys2Proof.Machine

theorem Memory.wf_iff (m : List Host.Cell) : Memory.wf m = true ↔ Tab.sorted m = true ∧ ∀ c ∈ m, c.2 ≠ 0#8 := by
  simp [Memory.wf, List.all_eq_true]

theorem Memory.wf_nil : Memory.wf [] = true := rfl

theorem Memory.wf_filter (m : List Host.Cell) (p : Host.Cell → Bool) (h : Memory.wf m = true) : Memory.wf (m.filter p) = true := by
  obtain ⟨h1, h2⟩ := (Memory.wf_iff m).1 h
  exact (Memory.wf_iff _).2 ⟨Tab.sorted_filter m p h1, fun c hc => h2 c (List.mem_of_mem_filter hc)⟩

theorem memSet_wf (m : List Host.Cell) (a : Nat) (b : Byte) (h : Memory.wf m = true) : Memory.wf (memSet m a b) = true := by
  unfold memSet
  split
  · exact Memory.wf_filter m _ h
  · obtain ⟨h1, h2⟩ := (Memory.wf_iff m).1 h
    refine (Memory.wf_iff _).2 ⟨Tab.sorted_set m a b h1, fun c hc => ?_⟩
    rcases Tab.mem_set m a b c hc with rfl | hc
    · assumption
    · exact h2 c hc

/-- A byte written reads back; every other byte reads as before. -/
theorem memGet_memSet (m : List Host.Cell) (a z : Nat) (b : Byte) (h : Memory.wf m = true) :
    memGet (memSet m a b) z = if z = a then b else memGet m z := by
  unfold memGet memSet
  by_cases hb : b = 0#8
  · rw [if_pos hb, Tab.find_erase m a z ((Memory.wf_iff m).1 h).1]
    by_cases hz : z = a <;> simp [hz, hb]
  · rw [if_neg hb]
    by_cases hz : z = a
    · subst hz; simp
    · rw [Tab.find_set_other m b hz, if_neg hz]

theorem memWrite_wf (n : Nat) : ∀ (m : List Host.Cell) (a v : Nat), Memory.wf m = true → Memory.wf (memWrite m a n v) = true := by
  induction n with
  | zero => exact fun _ _ _ h => h
  | succ k ih => exact fun m a v h => ih _ _ _ (memSet_wf m a _ h)

/-- After n bytes of v are written at a, byte a + i is byte i of v, and every byte outside reads as before. -/
theorem memGet_memWrite (n : Nat) : ∀ (m : List Host.Cell) (a v z : Nat), Memory.wf m = true →
    memGet (memWrite m a n v) z = if a ≤ z ∧ z < a + n then BitVec.ofNat 8 (v / 256 ^ (z - a)) else memGet m z := by
  induction n with
  | zero =>
    intro m a v z _
    rw [if_neg (by omega)]
    rfl
  | succ k ih =>
    intro m a v z h
    rw [memWrite, ih _ _ _ _ (memSet_wf m a _ h), memGet_memSet m a z _ h]
    by_cases hz : z = a
    · subst hz
      rw [if_neg (by omega), if_pos rfl, if_pos (by omega)]
      simp
    · rw [if_neg hz]
      by_cases hr : a + 1 ≤ z ∧ z < a + 1 + k
      · rw [if_pos hr, if_pos (by omega), Nat.div_div_eq_div_mul, show z - a = z - (a + 1) + 1 by omega, pow_succ']
      · rw [if_neg hr, if_neg (by omega)]

theorem memWrite_outside (m : List Host.Cell) (a n v z : Nat) (h : Memory.wf m = true) (hz : z < a ∨ a + n ≤ z) :
    memGet (memWrite m a n v) z = memGet m z := by
  rw [memGet_memWrite n m a v z h, if_neg (by omega)]

theorem memRead_congr (n : Nat) : ∀ (m w : List Host.Cell) (a : Nat), (∀ z, a ≤ z → z < a + n → memGet m z = memGet w z) →
    memRead m a n = memRead w a n := by
  induction n with
  | zero => exact fun _ _ _ _ => rfl
  | succ k ih =>
    intro m w a h
    rw [memRead, memRead, h a (by omega) (by omega), ih m w (a + 1) (fun z h1 h2 => h z (by omega) (by omega))]

/-- A read after a write at the same place gives the value's low n bytes. -/
theorem memRead_memWrite (n : Nat) : ∀ (m : List Host.Cell) (a v : Nat), Memory.wf m = true →
    memRead (memWrite m a n v) a n = v % 256 ^ n := by
  induction n with
  | zero => intro m a v _; simp [memRead, Nat.mod_one]
  | succ k ih =>
    intro m a v h
    have hw := memSet_wf m a (BitVec.ofNat 8 v) h
    rw [memRead, memWrite, ih _ _ _ hw, memGet_memWrite k _ _ _ _ hw, if_neg (by omega), memGet_memSet m a a _ h, if_pos rfl]
    rw [BitVec.toNat_ofNat, pow_succ' 256 k]
    exact (Nat.mod_mul (x := v) (a := 256) (b := 256 ^ k)).symm

/-- A read beside a write gives what it gave. -/
theorem memRead_memWrite_outside (m : List Host.Cell) (a n v b k : Nat) (h : Memory.wf m = true) (hb : b + k ≤ a ∨ a + n ≤ b) :
    memRead (memWrite m a n v) b k = memRead m b k :=
  memRead_congr k _ _ b (fun z h1 h2 => memWrite_outside m a n v z h (by omega))

theorem memWriteBytes_wf (l : List Byte) : ∀ (m : List Host.Cell) (a : Nat), Memory.wf m = true →
    Memory.wf (memWriteBytes m a l) = true := by
  induction l with
  | nil => exact fun _ _ h => h
  | cons b r ih => exact fun m a h => ih _ _ (memSet_wf m a b h)

theorem memZero_wf (m : List Host.Cell) (lo hi : Nat) (h : Memory.wf m = true) : Memory.wf (memZero m lo hi) = true :=
  Memory.wf_filter m _ h

theorem memGet_memZero (m : List Host.Cell) (lo hi z : Nat) (h : Memory.wf m = true) :
    memGet (memZero m lo hi) z = if lo ≤ z ∧ z < hi then 0#8 else memGet m z := by
  unfold memGet memZero
  rw [Tab.find_eraseRange m lo hi z ((Memory.wf_iff m).1 h).1]
  split <;> rfl

end Sys2Proof.Machine
end

