-- ==== Sys2Proof/Laws/State.lean ====
section
/-! SUPPORT. The named updates of the state: for each, one lemma for every field it leaves as it was, and what the accessors
show after it. -/

namespace Sys2Proof.Machine

variable (s : State)


/-! setReg -/

@[simp] theorem State.setReg_part (k : Nat) (w : W64) : (s.setReg k w).part = s.part := rfl
@[simp] theorem State.setReg_shadow (k : Nat) (w : W64) : (s.setReg k w).shadow = s.shadow := rfl
@[simp] theorem State.setReg_mem (k : Nat) (w : W64) : (s.setReg k w).mem = s.mem := rfl
@[simp] theorem State.setReg_poison (k : Nat) (w : W64) : (s.setReg k w).poison = s.poison := rfl
@[simp] theorem State.setReg_weak (k : Nat) (w : W64) : (s.setReg k w).weak = s.weak := rfl
@[simp] theorem State.setReg_cores (k : Nat) (w : W64) : (s.setReg k w).cores = s.cores := rfl
@[simp] theorem State.setReg_fab (k : Nat) (w : W64) : (s.setReg k w).fab = s.fab := rfl
@[simp] theorem State.setReg_hbm (k : Nat) (w : W64) : (s.setReg k w).hbm = s.hbm := rfl
@[simp] theorem State.setReg_ports (k : Nat) (w : W64) : (s.setReg k w).ports = s.ports := rfl
@[simp] theorem State.setReg_funcs (k : Nat) (w : W64) : (s.setReg k w).funcs = s.funcs := rfl
@[simp] theorem State.setReg_handles (k : Nat) (w : W64) : (s.setReg k w).handles = s.handles := rfl
@[simp] theorem State.setReg_parts (k : Nat) (w : W64) : (s.setReg k w).parts = s.parts := rfl
@[simp] theorem State.setReg_panel (k : Nat) (w : W64) : (s.setReg k w).panel = s.panel := rfl
@[simp] theorem State.setReg_power (k : Nat) (w : W64) : (s.setReg k w).power = s.power := rfl
@[simp] theorem State.setReg_therm (k : Nat) (w : W64) : (s.setReg k w).therm = s.therm := rfl
@[simp] theorem State.setReg_fac (k : Nat) (w : W64) : (s.setReg k w).fac = s.fac := rfl
@[simp] theorem State.setReg_chk (k : Nat) (w : W64) : (s.setReg k w).chk = s.chk := rfl
@[simp] theorem State.setReg_alm (k : Nat) (w : W64) : (s.setReg k w).alm = s.alm := rfl
@[simp] theorem State.setReg_err (k : Nat) (w : W64) : (s.setReg k w).err = s.err := rfl
@[simp] theorem State.setReg_mirror (k : Nat) (w : W64) : (s.setReg k w).mirror = s.mirror := rfl
@[simp] theorem State.setReg_boot (k : Nat) (w : W64) : (s.setReg k w).boot = s.boot := rfl
@[simp] theorem State.setReg_spdm (k : Nat) (w : W64) : (s.setReg k w).spdm = s.spdm := rfl
@[simp] theorem State.setReg_free (k : Nat) (w : W64) : (s.setReg k w).free = s.free := rfl
@[simp] theorem State.setReg_pending (k : Nat) (w : W64) : (s.setReg k w).pending = s.pending := rfl

/-! setFld -/

@[simp] theorem State.setFld_part (k : Nat) (F : Fld) (v : Nat) : (s.setFld k F v).part = s.part := rfl
@[simp] theorem State.setFld_shadow (k : Nat) (F : Fld) (v : Nat) : (s.setFld k F v).shadow = s.shadow := rfl
@[simp] theorem State.setFld_mem (k : Nat) (F : Fld) (v : Nat) : (s.setFld k F v).mem = s.mem := rfl
@[simp] theorem State.setFld_poison (k : Nat) (F : Fld) (v : Nat) : (s.setFld k F v).poison = s.poison := rfl
@[simp] theorem State.setFld_weak (k : Nat) (F : Fld) (v : Nat) : (s.setFld k F v).weak = s.weak := rfl
@[simp] theorem State.setFld_cores (k : Nat) (F : Fld) (v : Nat) : (s.setFld k F v).cores = s.cores := rfl
@[simp] theorem State.setFld_fab (k : Nat) (F : Fld) (v : Nat) : (s.setFld k F v).fab = s.fab := rfl
@[simp] theorem State.setFld_hbm (k : Nat) (F : Fld) (v : Nat) : (s.setFld k F v).hbm = s.hbm := rfl
@[simp] theorem State.setFld_ports (k : Nat) (F : Fld) (v : Nat) : (s.setFld k F v).ports = s.ports := rfl
@[simp] theorem State.setFld_funcs (k : Nat) (F : Fld) (v : Nat) : (s.setFld k F v).funcs = s.funcs := rfl
@[simp] theorem State.setFld_handles (k : Nat) (F : Fld) (v : Nat) : (s.setFld k F v).handles = s.handles := rfl
@[simp] theorem State.setFld_parts (k : Nat) (F : Fld) (v : Nat) : (s.setFld k F v).parts = s.parts := rfl
@[simp] theorem State.setFld_panel (k : Nat) (F : Fld) (v : Nat) : (s.setFld k F v).panel = s.panel := rfl
@[simp] theorem State.setFld_power (k : Nat) (F : Fld) (v : Nat) : (s.setFld k F v).power = s.power := rfl
@[simp] theorem State.setFld_therm (k : Nat) (F : Fld) (v : Nat) : (s.setFld k F v).therm = s.therm := rfl
@[simp] theorem State.setFld_fac (k : Nat) (F : Fld) (v : Nat) : (s.setFld k F v).fac = s.fac := rfl
@[simp] theorem State.setFld_chk (k : Nat) (F : Fld) (v : Nat) : (s.setFld k F v).chk = s.chk := rfl
@[simp] theorem State.setFld_alm (k : Nat) (F : Fld) (v : Nat) : (s.setFld k F v).alm = s.alm := rfl
@[simp] theorem State.setFld_err (k : Nat) (F : Fld) (v : Nat) : (s.setFld k F v).err = s.err := rfl
@[simp] theorem State.setFld_mirror (k : Nat) (F : Fld) (v : Nat) : (s.setFld k F v).mirror = s.mirror := rfl
@[simp] theorem State.setFld_boot (k : Nat) (F : Fld) (v : Nat) : (s.setFld k F v).boot = s.boot := rfl
@[simp] theorem State.setFld_spdm (k : Nat) (F : Fld) (v : Nat) : (s.setFld k F v).spdm = s.spdm := rfl
@[simp] theorem State.setFld_free (k : Nat) (F : Fld) (v : Nat) : (s.setFld k F v).free = s.free := rfl
@[simp] theorem State.setFld_pending (k : Nat) (F : Fld) (v : Nat) : (s.setFld k F v).pending = s.pending := rfl

/-! addSat -/

@[simp] theorem State.addSat_part (k : Nat) (F : Fld) (n : Nat) : (s.addSat k F n).part = s.part := rfl
@[simp] theorem State.addSat_shadow (k : Nat) (F : Fld) (n : Nat) : (s.addSat k F n).shadow = s.shadow := rfl
@[simp] theorem State.addSat_mem (k : Nat) (F : Fld) (n : Nat) : (s.addSat k F n).mem = s.mem := rfl
@[simp] theorem State.addSat_poison (k : Nat) (F : Fld) (n : Nat) : (s.addSat k F n).poison = s.poison := rfl
@[simp] theorem State.addSat_weak (k : Nat) (F : Fld) (n : Nat) : (s.addSat k F n).weak = s.weak := rfl
@[simp] theorem State.addSat_cores (k : Nat) (F : Fld) (n : Nat) : (s.addSat k F n).cores = s.cores := rfl
@[simp] theorem State.addSat_fab (k : Nat) (F : Fld) (n : Nat) : (s.addSat k F n).fab = s.fab := rfl
@[simp] theorem State.addSat_hbm (k : Nat) (F : Fld) (n : Nat) : (s.addSat k F n).hbm = s.hbm := rfl
@[simp] theorem State.addSat_ports (k : Nat) (F : Fld) (n : Nat) : (s.addSat k F n).ports = s.ports := rfl
@[simp] theorem State.addSat_funcs (k : Nat) (F : Fld) (n : Nat) : (s.addSat k F n).funcs = s.funcs := rfl
@[simp] theorem State.addSat_handles (k : Nat) (F : Fld) (n : Nat) : (s.addSat k F n).handles = s.handles := rfl
@[simp] theorem State.addSat_parts (k : Nat) (F : Fld) (n : Nat) : (s.addSat k F n).parts = s.parts := rfl
@[simp] theorem State.addSat_panel (k : Nat) (F : Fld) (n : Nat) : (s.addSat k F n).panel = s.panel := rfl
@[simp] theorem State.addSat_power (k : Nat) (F : Fld) (n : Nat) : (s.addSat k F n).power = s.power := rfl
@[simp] theorem State.addSat_therm (k : Nat) (F : Fld) (n : Nat) : (s.addSat k F n).therm = s.therm := rfl
@[simp] theorem State.addSat_fac (k : Nat) (F : Fld) (n : Nat) : (s.addSat k F n).fac = s.fac := rfl
@[simp] theorem State.addSat_chk (k : Nat) (F : Fld) (n : Nat) : (s.addSat k F n).chk = s.chk := rfl
@[simp] theorem State.addSat_alm (k : Nat) (F : Fld) (n : Nat) : (s.addSat k F n).alm = s.alm := rfl
@[simp] theorem State.addSat_err (k : Nat) (F : Fld) (n : Nat) : (s.addSat k F n).err = s.err := rfl
@[simp] theorem State.addSat_mirror (k : Nat) (F : Fld) (n : Nat) : (s.addSat k F n).mirror = s.mirror := rfl
@[simp] theorem State.addSat_boot (k : Nat) (F : Fld) (n : Nat) : (s.addSat k F n).boot = s.boot := rfl
@[simp] theorem State.addSat_spdm (k : Nat) (F : Fld) (n : Nat) : (s.addSat k F n).spdm = s.spdm := rfl
@[simp] theorem State.addSat_free (k : Nat) (F : Fld) (n : Nat) : (s.addSat k F n).free = s.free := rfl
@[simp] theorem State.addSat_pending (k : Nat) (F : Fld) (n : Nat) : (s.addSat k F n).pending = s.pending := rfl

/-! addWrap -/

@[simp] theorem State.addWrap_part (k : Nat) (F : Fld) (n : Nat) : (s.addWrap k F n).part = s.part := rfl
@[simp] theorem State.addWrap_shadow (k : Nat) (F : Fld) (n : Nat) : (s.addWrap k F n).shadow = s.shadow := rfl
@[simp] theorem State.addWrap_mem (k : Nat) (F : Fld) (n : Nat) : (s.addWrap k F n).mem = s.mem := rfl
@[simp] theorem State.addWrap_poison (k : Nat) (F : Fld) (n : Nat) : (s.addWrap k F n).poison = s.poison := rfl
@[simp] theorem State.addWrap_weak (k : Nat) (F : Fld) (n : Nat) : (s.addWrap k F n).weak = s.weak := rfl
@[simp] theorem State.addWrap_cores (k : Nat) (F : Fld) (n : Nat) : (s.addWrap k F n).cores = s.cores := rfl
@[simp] theorem State.addWrap_fab (k : Nat) (F : Fld) (n : Nat) : (s.addWrap k F n).fab = s.fab := rfl
@[simp] theorem State.addWrap_hbm (k : Nat) (F : Fld) (n : Nat) : (s.addWrap k F n).hbm = s.hbm := rfl
@[simp] theorem State.addWrap_ports (k : Nat) (F : Fld) (n : Nat) : (s.addWrap k F n).ports = s.ports := rfl
@[simp] theorem State.addWrap_funcs (k : Nat) (F : Fld) (n : Nat) : (s.addWrap k F n).funcs = s.funcs := rfl
@[simp] theorem State.addWrap_handles (k : Nat) (F : Fld) (n : Nat) : (s.addWrap k F n).handles = s.handles := rfl
@[simp] theorem State.addWrap_parts (k : Nat) (F : Fld) (n : Nat) : (s.addWrap k F n).parts = s.parts := rfl
@[simp] theorem State.addWrap_panel (k : Nat) (F : Fld) (n : Nat) : (s.addWrap k F n).panel = s.panel := rfl
@[simp] theorem State.addWrap_power (k : Nat) (F : Fld) (n : Nat) : (s.addWrap k F n).power = s.power := rfl
@[simp] theorem State.addWrap_therm (k : Nat) (F : Fld) (n : Nat) : (s.addWrap k F n).therm = s.therm := rfl
@[simp] theorem State.addWrap_fac (k : Nat) (F : Fld) (n : Nat) : (s.addWrap k F n).fac = s.fac := rfl
@[simp] theorem State.addWrap_chk (k : Nat) (F : Fld) (n : Nat) : (s.addWrap k F n).chk = s.chk := rfl
@[simp] theorem State.addWrap_alm (k : Nat) (F : Fld) (n : Nat) : (s.addWrap k F n).alm = s.alm := rfl
@[simp] theorem State.addWrap_err (k : Nat) (F : Fld) (n : Nat) : (s.addWrap k F n).err = s.err := rfl
@[simp] theorem State.addWrap_mirror (k : Nat) (F : Fld) (n : Nat) : (s.addWrap k F n).mirror = s.mirror := rfl
@[simp] theorem State.addWrap_boot (k : Nat) (F : Fld) (n : Nat) : (s.addWrap k F n).boot = s.boot := rfl
@[simp] theorem State.addWrap_spdm (k : Nat) (F : Fld) (n : Nat) : (s.addWrap k F n).spdm = s.spdm := rfl
@[simp] theorem State.addWrap_free (k : Nat) (F : Fld) (n : Nat) : (s.addWrap k F n).free = s.free := rfl
@[simp] theorem State.addWrap_pending (k : Nat) (F : Fld) (n : Nat) : (s.addWrap k F n).pending = s.pending := rfl

/-! setCore -/

@[simp] theorem State.setCore_part (g : Nat) (c : Core) : (s.setCore g c).part = s.part := rfl
@[simp] theorem State.setCore_regs (g : Nat) (c : Core) : (s.setCore g c).regs = s.regs := rfl
@[simp] theorem State.setCore_shadow (g : Nat) (c : Core) : (s.setCore g c).shadow = s.shadow := rfl
@[simp] theorem State.setCore_mem (g : Nat) (c : Core) : (s.setCore g c).mem = s.mem := rfl
@[simp] theorem State.setCore_poison (g : Nat) (c : Core) : (s.setCore g c).poison = s.poison := rfl
@[simp] theorem State.setCore_weak (g : Nat) (c : Core) : (s.setCore g c).weak = s.weak := rfl
@[simp] theorem State.setCore_fab (g : Nat) (c : Core) : (s.setCore g c).fab = s.fab := rfl
@[simp] theorem State.setCore_hbm (g : Nat) (c : Core) : (s.setCore g c).hbm = s.hbm := rfl
@[simp] theorem State.setCore_ports (g : Nat) (c : Core) : (s.setCore g c).ports = s.ports := rfl
@[simp] theorem State.setCore_funcs (g : Nat) (c : Core) : (s.setCore g c).funcs = s.funcs := rfl
@[simp] theorem State.setCore_handles (g : Nat) (c : Core) : (s.setCore g c).handles = s.handles := rfl
@[simp] theorem State.setCore_parts (g : Nat) (c : Core) : (s.setCore g c).parts = s.parts := rfl
@[simp] theorem State.setCore_panel (g : Nat) (c : Core) : (s.setCore g c).panel = s.panel := rfl
@[simp] theorem State.setCore_power (g : Nat) (c : Core) : (s.setCore g c).power = s.power := rfl
@[simp] theorem State.setCore_therm (g : Nat) (c : Core) : (s.setCore g c).therm = s.therm := rfl
@[simp] theorem State.setCore_fac (g : Nat) (c : Core) : (s.setCore g c).fac = s.fac := rfl
@[simp] theorem State.setCore_chk (g : Nat) (c : Core) : (s.setCore g c).chk = s.chk := rfl
@[simp] theorem State.setCore_alm (g : Nat) (c : Core) : (s.setCore g c).alm = s.alm := rfl
@[simp] theorem State.setCore_err (g : Nat) (c : Core) : (s.setCore g c).err = s.err := rfl
@[simp] theorem State.setCore_mirror (g : Nat) (c : Core) : (s.setCore g c).mirror = s.mirror := rfl
@[simp] theorem State.setCore_boot (g : Nat) (c : Core) : (s.setCore g c).boot = s.boot := rfl
@[simp] theorem State.setCore_spdm (g : Nat) (c : Core) : (s.setCore g c).spdm = s.spdm := rfl
@[simp] theorem State.setCore_free (g : Nat) (c : Core) : (s.setCore g c).free = s.free := rfl
@[simp] theorem State.setCore_pending (g : Nat) (c : Core) : (s.setCore g c).pending = s.pending := rfl

/-! updCore -/

@[simp] theorem State.updCore_part (g : Nat) (f : Core → Core) : (s.updCore g f).part = s.part := rfl
@[simp] theorem State.updCore_regs (g : Nat) (f : Core → Core) : (s.updCore g f).regs = s.regs := rfl
@[simp] theorem State.updCore_shadow (g : Nat) (f : Core → Core) : (s.updCore g f).shadow = s.shadow := rfl
@[simp] theorem State.updCore_mem (g : Nat) (f : Core → Core) : (s.updCore g f).mem = s.mem := rfl
@[simp] theorem State.updCore_poison (g : Nat) (f : Core → Core) : (s.updCore g f).poison = s.poison := rfl
@[simp] theorem State.updCore_weak (g : Nat) (f : Core → Core) : (s.updCore g f).weak = s.weak := rfl
@[simp] theorem State.updCore_fab (g : Nat) (f : Core → Core) : (s.updCore g f).fab = s.fab := rfl
@[simp] theorem State.updCore_hbm (g : Nat) (f : Core → Core) : (s.updCore g f).hbm = s.hbm := rfl
@[simp] theorem State.updCore_ports (g : Nat) (f : Core → Core) : (s.updCore g f).ports = s.ports := rfl
@[simp] theorem State.updCore_funcs (g : Nat) (f : Core → Core) : (s.updCore g f).funcs = s.funcs := rfl
@[simp] theorem State.updCore_handles (g : Nat) (f : Core → Core) : (s.updCore g f).handles = s.handles := rfl
@[simp] theorem State.updCore_parts (g : Nat) (f : Core → Core) : (s.updCore g f).parts = s.parts := rfl
@[simp] theorem State.updCore_panel (g : Nat) (f : Core → Core) : (s.updCore g f).panel = s.panel := rfl
@[simp] theorem State.updCore_power (g : Nat) (f : Core → Core) : (s.updCore g f).power = s.power := rfl
@[simp] theorem State.updCore_therm (g : Nat) (f : Core → Core) : (s.updCore g f).therm = s.therm := rfl
@[simp] theorem State.updCore_fac (g : Nat) (f : Core → Core) : (s.updCore g f).fac = s.fac := rfl
@[simp] theorem State.updCore_chk (g : Nat) (f : Core → Core) : (s.updCore g f).chk = s.chk := rfl
@[simp] theorem State.updCore_alm (g : Nat) (f : Core → Core) : (s.updCore g f).alm = s.alm := rfl
@[simp] theorem State.updCore_err (g : Nat) (f : Core → Core) : (s.updCore g f).err = s.err := rfl
@[simp] theorem State.updCore_mirror (g : Nat) (f : Core → Core) : (s.updCore g f).mirror = s.mirror := rfl
@[simp] theorem State.updCore_boot (g : Nat) (f : Core → Core) : (s.updCore g f).boot = s.boot := rfl
@[simp] theorem State.updCore_spdm (g : Nat) (f : Core → Core) : (s.updCore g f).spdm = s.spdm := rfl
@[simp] theorem State.updCore_free (g : Nat) (f : Core → Core) : (s.updCore g f).free = s.free := rfl
@[simp] theorem State.updCore_pending (g : Nat) (f : Core → Core) : (s.updCore g f).pending = s.pending := rfl

/-! setMac -/

@[simp] theorem State.setMac_part (g : Nat) (m : Mac) : (s.setMac g m).part = s.part := rfl
@[simp] theorem State.setMac_regs (g : Nat) (m : Mac) : (s.setMac g m).regs = s.regs := rfl
@[simp] theorem State.setMac_shadow (g : Nat) (m : Mac) : (s.setMac g m).shadow = s.shadow := rfl
@[simp] theorem State.setMac_mem (g : Nat) (m : Mac) : (s.setMac g m).mem = s.mem := rfl
@[simp] theorem State.setMac_poison (g : Nat) (m : Mac) : (s.setMac g m).poison = s.poison := rfl
@[simp] theorem State.setMac_weak (g : Nat) (m : Mac) : (s.setMac g m).weak = s.weak := rfl
@[simp] theorem State.setMac_fab (g : Nat) (m : Mac) : (s.setMac g m).fab = s.fab := rfl
@[simp] theorem State.setMac_hbm (g : Nat) (m : Mac) : (s.setMac g m).hbm = s.hbm := rfl
@[simp] theorem State.setMac_ports (g : Nat) (m : Mac) : (s.setMac g m).ports = s.ports := rfl
@[simp] theorem State.setMac_funcs (g : Nat) (m : Mac) : (s.setMac g m).funcs = s.funcs := rfl
@[simp] theorem State.setMac_handles (g : Nat) (m : Mac) : (s.setMac g m).handles = s.handles := rfl
@[simp] theorem State.setMac_parts (g : Nat) (m : Mac) : (s.setMac g m).parts = s.parts := rfl
@[simp] theorem State.setMac_panel (g : Nat) (m : Mac) : (s.setMac g m).panel = s.panel := rfl
@[simp] theorem State.setMac_power (g : Nat) (m : Mac) : (s.setMac g m).power = s.power := rfl
@[simp] theorem State.setMac_therm (g : Nat) (m : Mac) : (s.setMac g m).therm = s.therm := rfl
@[simp] theorem State.setMac_fac (g : Nat) (m : Mac) : (s.setMac g m).fac = s.fac := rfl
@[simp] theorem State.setMac_chk (g : Nat) (m : Mac) : (s.setMac g m).chk = s.chk := rfl
@[simp] theorem State.setMac_alm (g : Nat) (m : Mac) : (s.setMac g m).alm = s.alm := rfl
@[simp] theorem State.setMac_err (g : Nat) (m : Mac) : (s.setMac g m).err = s.err := rfl
@[simp] theorem State.setMac_mirror (g : Nat) (m : Mac) : (s.setMac g m).mirror = s.mirror := rfl
@[simp] theorem State.setMac_boot (g : Nat) (m : Mac) : (s.setMac g m).boot = s.boot := rfl
@[simp] theorem State.setMac_spdm (g : Nat) (m : Mac) : (s.setMac g m).spdm = s.spdm := rfl
@[simp] theorem State.setMac_free (g : Nat) (m : Mac) : (s.setMac g m).free = s.free := rfl
@[simp] theorem State.setMac_pending (g : Nat) (m : Mac) : (s.setMac g m).pending = s.pending := rfl

/-! updDma -/

@[simp] theorem State.updDma_part (g : Nat) (f : Dma → Dma) : (s.updDma g f).part = s.part := rfl
@[simp] theorem State.updDma_regs (g : Nat) (f : Dma → Dma) : (s.updDma g f).regs = s.regs := rfl
@[simp] theorem State.updDma_shadow (g : Nat) (f : Dma → Dma) : (s.updDma g f).shadow = s.shadow := rfl
@[simp] theorem State.updDma_mem (g : Nat) (f : Dma → Dma) : (s.updDma g f).mem = s.mem := rfl
@[simp] theorem State.updDma_poison (g : Nat) (f : Dma → Dma) : (s.updDma g f).poison = s.poison := rfl
@[simp] theorem State.updDma_weak (g : Nat) (f : Dma → Dma) : (s.updDma g f).weak = s.weak := rfl
@[simp] theorem State.updDma_fab (g : Nat) (f : Dma → Dma) : (s.updDma g f).fab = s.fab := rfl
@[simp] theorem State.updDma_hbm (g : Nat) (f : Dma → Dma) : (s.updDma g f).hbm = s.hbm := rfl
@[simp] theorem State.updDma_ports (g : Nat) (f : Dma → Dma) : (s.updDma g f).ports = s.ports := rfl
@[simp] theorem State.updDma_funcs (g : Nat) (f : Dma → Dma) : (s.updDma g f).funcs = s.funcs := rfl
@[simp] theorem State.updDma_handles (g : Nat) (f : Dma → Dma) : (s.updDma g f).handles = s.handles := rfl
@[simp] theorem State.updDma_parts (g : Nat) (f : Dma → Dma) : (s.updDma g f).parts = s.parts := rfl
@[simp] theorem State.updDma_panel (g : Nat) (f : Dma → Dma) : (s.updDma g f).panel = s.panel := rfl
@[simp] theorem State.updDma_power (g : Nat) (f : Dma → Dma) : (s.updDma g f).power = s.power := rfl
@[simp] theorem State.updDma_therm (g : Nat) (f : Dma → Dma) : (s.updDma g f).therm = s.therm := rfl
@[simp] theorem State.updDma_fac (g : Nat) (f : Dma → Dma) : (s.updDma g f).fac = s.fac := rfl
@[simp] theorem State.updDma_chk (g : Nat) (f : Dma → Dma) : (s.updDma g f).chk = s.chk := rfl
@[simp] theorem State.updDma_alm (g : Nat) (f : Dma → Dma) : (s.updDma g f).alm = s.alm := rfl
@[simp] theorem State.updDma_err (g : Nat) (f : Dma → Dma) : (s.updDma g f).err = s.err := rfl
@[simp] theorem State.updDma_mirror (g : Nat) (f : Dma → Dma) : (s.updDma g f).mirror = s.mirror := rfl
@[simp] theorem State.updDma_boot (g : Nat) (f : Dma → Dma) : (s.updDma g f).boot = s.boot := rfl
@[simp] theorem State.updDma_spdm (g : Nat) (f : Dma → Dma) : (s.updDma g f).spdm = s.spdm := rfl
@[simp] theorem State.updDma_free (g : Nat) (f : Dma → Dma) : (s.updDma g f).free = s.free := rfl
@[simp] theorem State.updDma_pending (g : Nat) (f : Dma → Dma) : (s.updDma g f).pending = s.pending := rfl

/-! updEdge -/

@[simp] theorem State.updEdge_part (g : Nat) (f : Edge → Edge) : (s.updEdge g f).part = s.part := rfl
@[simp] theorem State.updEdge_regs (g : Nat) (f : Edge → Edge) : (s.updEdge g f).regs = s.regs := rfl
@[simp] theorem State.updEdge_shadow (g : Nat) (f : Edge → Edge) : (s.updEdge g f).shadow = s.shadow := rfl
@[simp] theorem State.updEdge_mem (g : Nat) (f : Edge → Edge) : (s.updEdge g f).mem = s.mem := rfl
@[simp] theorem State.updEdge_poison (g : Nat) (f : Edge → Edge) : (s.updEdge g f).poison = s.poison := rfl
@[simp] theorem State.updEdge_weak (g : Nat) (f : Edge → Edge) : (s.updEdge g f).weak = s.weak := rfl
@[simp] theorem State.updEdge_fab (g : Nat) (f : Edge → Edge) : (s.updEdge g f).fab = s.fab := rfl
@[simp] theorem State.updEdge_hbm (g : Nat) (f : Edge → Edge) : (s.updEdge g f).hbm = s.hbm := rfl
@[simp] theorem State.updEdge_ports (g : Nat) (f : Edge → Edge) : (s.updEdge g f).ports = s.ports := rfl
@[simp] theorem State.updEdge_funcs (g : Nat) (f : Edge → Edge) : (s.updEdge g f).funcs = s.funcs := rfl
@[simp] theorem State.updEdge_handles (g : Nat) (f : Edge → Edge) : (s.updEdge g f).handles = s.handles := rfl
@[simp] theorem State.updEdge_parts (g : Nat) (f : Edge → Edge) : (s.updEdge g f).parts = s.parts := rfl
@[simp] theorem State.updEdge_panel (g : Nat) (f : Edge → Edge) : (s.updEdge g f).panel = s.panel := rfl
@[simp] theorem State.updEdge_power (g : Nat) (f : Edge → Edge) : (s.updEdge g f).power = s.power := rfl
@[simp] theorem State.updEdge_therm (g : Nat) (f : Edge → Edge) : (s.updEdge g f).therm = s.therm := rfl
@[simp] theorem State.updEdge_fac (g : Nat) (f : Edge → Edge) : (s.updEdge g f).fac = s.fac := rfl
@[simp] theorem State.updEdge_chk (g : Nat) (f : Edge → Edge) : (s.updEdge g f).chk = s.chk := rfl
@[simp] theorem State.updEdge_alm (g : Nat) (f : Edge → Edge) : (s.updEdge g f).alm = s.alm := rfl
@[simp] theorem State.updEdge_err (g : Nat) (f : Edge → Edge) : (s.updEdge g f).err = s.err := rfl
@[simp] theorem State.updEdge_mirror (g : Nat) (f : Edge → Edge) : (s.updEdge g f).mirror = s.mirror := rfl
@[simp] theorem State.updEdge_boot (g : Nat) (f : Edge → Edge) : (s.updEdge g f).boot = s.boot := rfl
@[simp] theorem State.updEdge_spdm (g : Nat) (f : Edge → Edge) : (s.updEdge g f).spdm = s.spdm := rfl
@[simp] theorem State.updEdge_free (g : Nat) (f : Edge → Edge) : (s.updEdge g f).free = s.free := rfl
@[simp] theorem State.updEdge_pending (g : Nat) (f : Edge → Edge) : (s.updEdge g f).pending = s.pending := rfl

/-! setPort -/

@[simp] theorem State.setPort_part (p : Nat) (x : Port) : (s.setPort p x).part = s.part := rfl
@[simp] theorem State.setPort_regs (p : Nat) (x : Port) : (s.setPort p x).regs = s.regs := rfl
@[simp] theorem State.setPort_shadow (p : Nat) (x : Port) : (s.setPort p x).shadow = s.shadow := rfl
@[simp] theorem State.setPort_mem (p : Nat) (x : Port) : (s.setPort p x).mem = s.mem := rfl
@[simp] theorem State.setPort_poison (p : Nat) (x : Port) : (s.setPort p x).poison = s.poison := rfl
@[simp] theorem State.setPort_weak (p : Nat) (x : Port) : (s.setPort p x).weak = s.weak := rfl
@[simp] theorem State.setPort_cores (p : Nat) (x : Port) : (s.setPort p x).cores = s.cores := rfl
@[simp] theorem State.setPort_fab (p : Nat) (x : Port) : (s.setPort p x).fab = s.fab := rfl
@[simp] theorem State.setPort_hbm (p : Nat) (x : Port) : (s.setPort p x).hbm = s.hbm := rfl
@[simp] theorem State.setPort_funcs (p : Nat) (x : Port) : (s.setPort p x).funcs = s.funcs := rfl
@[simp] theorem State.setPort_handles (p : Nat) (x : Port) : (s.setPort p x).handles = s.handles := rfl
@[simp] theorem State.setPort_parts (p : Nat) (x : Port) : (s.setPort p x).parts = s.parts := rfl
@[simp] theorem State.setPort_panel (p : Nat) (x : Port) : (s.setPort p x).panel = s.panel := rfl
@[simp] theorem State.setPort_power (p : Nat) (x : Port) : (s.setPort p x).power = s.power := rfl
@[simp] theorem State.setPort_therm (p : Nat) (x : Port) : (s.setPort p x).therm = s.therm := rfl
@[simp] theorem State.setPort_fac (p : Nat) (x : Port) : (s.setPort p x).fac = s.fac := rfl
@[simp] theorem State.setPort_chk (p : Nat) (x : Port) : (s.setPort p x).chk = s.chk := rfl
@[simp] theorem State.setPort_alm (p : Nat) (x : Port) : (s.setPort p x).alm = s.alm := rfl
@[simp] theorem State.setPort_err (p : Nat) (x : Port) : (s.setPort p x).err = s.err := rfl
@[simp] theorem State.setPort_mirror (p : Nat) (x : Port) : (s.setPort p x).mirror = s.mirror := rfl
@[simp] theorem State.setPort_boot (p : Nat) (x : Port) : (s.setPort p x).boot = s.boot := rfl
@[simp] theorem State.setPort_spdm (p : Nat) (x : Port) : (s.setPort p x).spdm = s.spdm := rfl
@[simp] theorem State.setPort_free (p : Nat) (x : Port) : (s.setPort p x).free = s.free := rfl
@[simp] theorem State.setPort_pending (p : Nat) (x : Port) : (s.setPort p x).pending = s.pending := rfl

/-! setFunc -/

@[simp] theorem State.setFunc_part (p f : Nat) (x : Func) : (s.setFunc p f x).part = s.part := rfl
@[simp] theorem State.setFunc_regs (p f : Nat) (x : Func) : (s.setFunc p f x).regs = s.regs := rfl
@[simp] theorem State.setFunc_shadow (p f : Nat) (x : Func) : (s.setFunc p f x).shadow = s.shadow := rfl
@[simp] theorem State.setFunc_mem (p f : Nat) (x : Func) : (s.setFunc p f x).mem = s.mem := rfl
@[simp] theorem State.setFunc_poison (p f : Nat) (x : Func) : (s.setFunc p f x).poison = s.poison := rfl
@[simp] theorem State.setFunc_weak (p f : Nat) (x : Func) : (s.setFunc p f x).weak = s.weak := rfl
@[simp] theorem State.setFunc_cores (p f : Nat) (x : Func) : (s.setFunc p f x).cores = s.cores := rfl
@[simp] theorem State.setFunc_fab (p f : Nat) (x : Func) : (s.setFunc p f x).fab = s.fab := rfl
@[simp] theorem State.setFunc_hbm (p f : Nat) (x : Func) : (s.setFunc p f x).hbm = s.hbm := rfl
@[simp] theorem State.setFunc_ports (p f : Nat) (x : Func) : (s.setFunc p f x).ports = s.ports := rfl
@[simp] theorem State.setFunc_handles (p f : Nat) (x : Func) : (s.setFunc p f x).handles = s.handles := rfl
@[simp] theorem State.setFunc_parts (p f : Nat) (x : Func) : (s.setFunc p f x).parts = s.parts := rfl
@[simp] theorem State.setFunc_panel (p f : Nat) (x : Func) : (s.setFunc p f x).panel = s.panel := rfl
@[simp] theorem State.setFunc_power (p f : Nat) (x : Func) : (s.setFunc p f x).power = s.power := rfl
@[simp] theorem State.setFunc_therm (p f : Nat) (x : Func) : (s.setFunc p f x).therm = s.therm := rfl
@[simp] theorem State.setFunc_fac (p f : Nat) (x : Func) : (s.setFunc p f x).fac = s.fac := rfl
@[simp] theorem State.setFunc_chk (p f : Nat) (x : Func) : (s.setFunc p f x).chk = s.chk := rfl
@[simp] theorem State.setFunc_alm (p f : Nat) (x : Func) : (s.setFunc p f x).alm = s.alm := rfl
@[simp] theorem State.setFunc_err (p f : Nat) (x : Func) : (s.setFunc p f x).err = s.err := rfl
@[simp] theorem State.setFunc_mirror (p f : Nat) (x : Func) : (s.setFunc p f x).mirror = s.mirror := rfl
@[simp] theorem State.setFunc_boot (p f : Nat) (x : Func) : (s.setFunc p f x).boot = s.boot := rfl
@[simp] theorem State.setFunc_spdm (p f : Nat) (x : Func) : (s.setFunc p f x).spdm = s.spdm := rfl
@[simp] theorem State.setFunc_free (p f : Nat) (x : Func) : (s.setFunc p f x).free = s.free := rfl
@[simp] theorem State.setFunc_pending (p f : Nat) (x : Func) : (s.setFunc p f x).pending = s.pending := rfl

/-! setPrt -/

@[simp] theorem State.setPrt_part (q : Nat) (x : Partition) : (s.setPrt q x).part = s.part := rfl
@[simp] theorem State.setPrt_regs (q : Nat) (x : Partition) : (s.setPrt q x).regs = s.regs := rfl
@[simp] theorem State.setPrt_shadow (q : Nat) (x : Partition) : (s.setPrt q x).shadow = s.shadow := rfl
@[simp] theorem State.setPrt_mem (q : Nat) (x : Partition) : (s.setPrt q x).mem = s.mem := rfl
@[simp] theorem State.setPrt_poison (q : Nat) (x : Partition) : (s.setPrt q x).poison = s.poison := rfl
@[simp] theorem State.setPrt_weak (q : Nat) (x : Partition) : (s.setPrt q x).weak = s.weak := rfl
@[simp] theorem State.setPrt_cores (q : Nat) (x : Partition) : (s.setPrt q x).cores = s.cores := rfl
@[simp] theorem State.setPrt_fab (q : Nat) (x : Partition) : (s.setPrt q x).fab = s.fab := rfl
@[simp] theorem State.setPrt_hbm (q : Nat) (x : Partition) : (s.setPrt q x).hbm = s.hbm := rfl
@[simp] theorem State.setPrt_ports (q : Nat) (x : Partition) : (s.setPrt q x).ports = s.ports := rfl
@[simp] theorem State.setPrt_funcs (q : Nat) (x : Partition) : (s.setPrt q x).funcs = s.funcs := rfl
@[simp] theorem State.setPrt_handles (q : Nat) (x : Partition) : (s.setPrt q x).handles = s.handles := rfl
@[simp] theorem State.setPrt_panel (q : Nat) (x : Partition) : (s.setPrt q x).panel = s.panel := rfl
@[simp] theorem State.setPrt_power (q : Nat) (x : Partition) : (s.setPrt q x).power = s.power := rfl
@[simp] theorem State.setPrt_therm (q : Nat) (x : Partition) : (s.setPrt q x).therm = s.therm := rfl
@[simp] theorem State.setPrt_fac (q : Nat) (x : Partition) : (s.setPrt q x).fac = s.fac := rfl
@[simp] theorem State.setPrt_chk (q : Nat) (x : Partition) : (s.setPrt q x).chk = s.chk := rfl
@[simp] theorem State.setPrt_alm (q : Nat) (x : Partition) : (s.setPrt q x).alm = s.alm := rfl
@[simp] theorem State.setPrt_err (q : Nat) (x : Partition) : (s.setPrt q x).err = s.err := rfl
@[simp] theorem State.setPrt_mirror (q : Nat) (x : Partition) : (s.setPrt q x).mirror = s.mirror := rfl
@[simp] theorem State.setPrt_boot (q : Nat) (x : Partition) : (s.setPrt q x).boot = s.boot := rfl
@[simp] theorem State.setPrt_spdm (q : Nat) (x : Partition) : (s.setPrt q x).spdm = s.spdm := rfl
@[simp] theorem State.setPrt_free (q : Nat) (x : Partition) : (s.setPrt q x).free = s.free := rfl
@[simp] theorem State.setPrt_pending (q : Nat) (x : Partition) : (s.setPrt q x).pending = s.pending := rfl

/-! updPrt -/

@[simp] theorem State.updPrt_part (q : Nat) (f : Partition → Partition) : (s.updPrt q f).part = s.part := rfl
@[simp] theorem State.updPrt_regs (q : Nat) (f : Partition → Partition) : (s.updPrt q f).regs = s.regs := rfl
@[simp] theorem State.updPrt_shadow (q : Nat) (f : Partition → Partition) : (s.updPrt q f).shadow = s.shadow := rfl
@[simp] theorem State.updPrt_mem (q : Nat) (f : Partition → Partition) : (s.updPrt q f).mem = s.mem := rfl
@[simp] theorem State.updPrt_poison (q : Nat) (f : Partition → Partition) : (s.updPrt q f).poison = s.poison := rfl
@[simp] theorem State.updPrt_weak (q : Nat) (f : Partition → Partition) : (s.updPrt q f).weak = s.weak := rfl
@[simp] theorem State.updPrt_cores (q : Nat) (f : Partition → Partition) : (s.updPrt q f).cores = s.cores := rfl
@[simp] theorem State.updPrt_fab (q : Nat) (f : Partition → Partition) : (s.updPrt q f).fab = s.fab := rfl
@[simp] theorem State.updPrt_hbm (q : Nat) (f : Partition → Partition) : (s.updPrt q f).hbm = s.hbm := rfl
@[simp] theorem State.updPrt_ports (q : Nat) (f : Partition → Partition) : (s.updPrt q f).ports = s.ports := rfl
@[simp] theorem State.updPrt_funcs (q : Nat) (f : Partition → Partition) : (s.updPrt q f).funcs = s.funcs := rfl
@[simp] theorem State.updPrt_handles (q : Nat) (f : Partition → Partition) : (s.updPrt q f).handles = s.handles := rfl
@[simp] theorem State.updPrt_panel (q : Nat) (f : Partition → Partition) : (s.updPrt q f).panel = s.panel := rfl
@[simp] theorem State.updPrt_power (q : Nat) (f : Partition → Partition) : (s.updPrt q f).power = s.power := rfl
@[simp] theorem State.updPrt_therm (q : Nat) (f : Partition → Partition) : (s.updPrt q f).therm = s.therm := rfl
@[simp] theorem State.updPrt_fac (q : Nat) (f : Partition → Partition) : (s.updPrt q f).fac = s.fac := rfl
@[simp] theorem State.updPrt_chk (q : Nat) (f : Partition → Partition) : (s.updPrt q f).chk = s.chk := rfl
@[simp] theorem State.updPrt_alm (q : Nat) (f : Partition → Partition) : (s.updPrt q f).alm = s.alm := rfl
@[simp] theorem State.updPrt_err (q : Nat) (f : Partition → Partition) : (s.updPrt q f).err = s.err := rfl
@[simp] theorem State.updPrt_mirror (q : Nat) (f : Partition → Partition) : (s.updPrt q f).mirror = s.mirror := rfl
@[simp] theorem State.updPrt_boot (q : Nat) (f : Partition → Partition) : (s.updPrt q f).boot = s.boot := rfl
@[simp] theorem State.updPrt_spdm (q : Nat) (f : Partition → Partition) : (s.updPrt q f).spdm = s.spdm := rfl
@[simp] theorem State.updPrt_free (q : Nat) (f : Partition → Partition) : (s.updPrt q f).free = s.free := rfl
@[simp] theorem State.updPrt_pending (q : Nat) (f : Partition → Partition) : (s.updPrt q f).pending = s.pending := rfl

/-! setAlm -/

@[simp] theorem State.setAlm_part (k v : Nat) : (s.setAlm k v).part = s.part := rfl
@[simp] theorem State.setAlm_regs (k v : Nat) : (s.setAlm k v).regs = s.regs := rfl
@[simp] theorem State.setAlm_shadow (k v : Nat) : (s.setAlm k v).shadow = s.shadow := rfl
@[simp] theorem State.setAlm_mem (k v : Nat) : (s.setAlm k v).mem = s.mem := rfl
@[simp] theorem State.setAlm_poison (k v : Nat) : (s.setAlm k v).poison = s.poison := rfl
@[simp] theorem State.setAlm_weak (k v : Nat) : (s.setAlm k v).weak = s.weak := rfl
@[simp] theorem State.setAlm_cores (k v : Nat) : (s.setAlm k v).cores = s.cores := rfl
@[simp] theorem State.setAlm_fab (k v : Nat) : (s.setAlm k v).fab = s.fab := rfl
@[simp] theorem State.setAlm_hbm (k v : Nat) : (s.setAlm k v).hbm = s.hbm := rfl
@[simp] theorem State.setAlm_ports (k v : Nat) : (s.setAlm k v).ports = s.ports := rfl
@[simp] theorem State.setAlm_funcs (k v : Nat) : (s.setAlm k v).funcs = s.funcs := rfl
@[simp] theorem State.setAlm_handles (k v : Nat) : (s.setAlm k v).handles = s.handles := rfl
@[simp] theorem State.setAlm_parts (k v : Nat) : (s.setAlm k v).parts = s.parts := rfl
@[simp] theorem State.setAlm_panel (k v : Nat) : (s.setAlm k v).panel = s.panel := rfl
@[simp] theorem State.setAlm_power (k v : Nat) : (s.setAlm k v).power = s.power := rfl
@[simp] theorem State.setAlm_therm (k v : Nat) : (s.setAlm k v).therm = s.therm := rfl
@[simp] theorem State.setAlm_fac (k v : Nat) : (s.setAlm k v).fac = s.fac := rfl
@[simp] theorem State.setAlm_chk (k v : Nat) : (s.setAlm k v).chk = s.chk := rfl
@[simp] theorem State.setAlm_err (k v : Nat) : (s.setAlm k v).err = s.err := rfl
@[simp] theorem State.setAlm_mirror (k v : Nat) : (s.setAlm k v).mirror = s.mirror := rfl
@[simp] theorem State.setAlm_boot (k v : Nat) : (s.setAlm k v).boot = s.boot := rfl
@[simp] theorem State.setAlm_spdm (k v : Nat) : (s.setAlm k v).spdm = s.spdm := rfl
@[simp] theorem State.setAlm_free (k v : Nat) : (s.setAlm k v).free = s.free := rfl
@[simp] theorem State.setAlm_pending (k v : Nat) : (s.setAlm k v).pending = s.pending := rfl

/-! addScore -/

@[simp] theorem State.addScore_part (k w : Nat) : (s.addScore k w).part = s.part := by unfold State.addScore; split <;> rfl
@[simp] theorem State.addScore_regs (k w : Nat) : (s.addScore k w).regs = s.regs := by unfold State.addScore; split <;> rfl
@[simp] theorem State.addScore_shadow (k w : Nat) : (s.addScore k w).shadow = s.shadow := by unfold State.addScore; split <;> rfl
@[simp] theorem State.addScore_mem (k w : Nat) : (s.addScore k w).mem = s.mem := by unfold State.addScore; split <;> rfl
@[simp] theorem State.addScore_poison (k w : Nat) : (s.addScore k w).poison = s.poison := by unfold State.addScore; split <;> rfl
@[simp] theorem State.addScore_weak (k w : Nat) : (s.addScore k w).weak = s.weak := by unfold State.addScore; split <;> rfl
@[simp] theorem State.addScore_cores (k w : Nat) : (s.addScore k w).cores = s.cores := by unfold State.addScore; split <;> rfl
@[simp] theorem State.addScore_fab (k w : Nat) : (s.addScore k w).fab = s.fab := by unfold State.addScore; split <;> rfl
@[simp] theorem State.addScore_hbm (k w : Nat) : (s.addScore k w).hbm = s.hbm := by unfold State.addScore; split <;> rfl
@[simp] theorem State.addScore_ports (k w : Nat) : (s.addScore k w).ports = s.ports := by unfold State.addScore; split <;> rfl
@[simp] theorem State.addScore_funcs (k w : Nat) : (s.addScore k w).funcs = s.funcs := by unfold State.addScore; split <;> rfl
@[simp] theorem State.addScore_handles (k w : Nat) : (s.addScore k w).handles = s.handles := by unfold State.addScore; split <;> rfl
@[simp] theorem State.addScore_parts (k w : Nat) : (s.addScore k w).parts = s.parts := by unfold State.addScore; split <;> rfl
@[simp] theorem State.addScore_panel (k w : Nat) : (s.addScore k w).panel = s.panel := by unfold State.addScore; split <;> rfl
@[simp] theorem State.addScore_power (k w : Nat) : (s.addScore k w).power = s.power := by unfold State.addScore; split <;> rfl
@[simp] theorem State.addScore_therm (k w : Nat) : (s.addScore k w).therm = s.therm := by unfold State.addScore; split <;> rfl
@[simp] theorem State.addScore_fac (k w : Nat) : (s.addScore k w).fac = s.fac := by unfold State.addScore; split <;> rfl
@[simp] theorem State.addScore_chk (k w : Nat) : (s.addScore k w).chk = s.chk := by unfold State.addScore; split <;> rfl
@[simp] theorem State.addScore_err (k w : Nat) : (s.addScore k w).err = s.err := by unfold State.addScore; split <;> rfl
@[simp] theorem State.addScore_mirror (k w : Nat) : (s.addScore k w).mirror = s.mirror := by unfold State.addScore; split <;> rfl
@[simp] theorem State.addScore_boot (k w : Nat) : (s.addScore k w).boot = s.boot := by unfold State.addScore; split <;> rfl
@[simp] theorem State.addScore_spdm (k w : Nat) : (s.addScore k w).spdm = s.spdm := by unfold State.addScore; split <;> rfl
@[simp] theorem State.addScore_free (k w : Nat) : (s.addScore k w).free = s.free := by unfold State.addScore; split <;> rfl
@[simp] theorem State.addScore_pending (k w : Nat) : (s.addScore k w).pending = s.pending := by unfold State.addScore; split <;> rfl

/-! setChan -/

@[simp] theorem State.setChan_part (c : Nat) (x : Channel) : (s.setChan c x).part = s.part := rfl
@[simp] theorem State.setChan_regs (c : Nat) (x : Channel) : (s.setChan c x).regs = s.regs := rfl
@[simp] theorem State.setChan_shadow (c : Nat) (x : Channel) : (s.setChan c x).shadow = s.shadow := rfl
@[simp] theorem State.setChan_mem (c : Nat) (x : Channel) : (s.setChan c x).mem = s.mem := rfl
@[simp] theorem State.setChan_poison (c : Nat) (x : Channel) : (s.setChan c x).poison = s.poison := rfl
@[simp] theorem State.setChan_weak (c : Nat) (x : Channel) : (s.setChan c x).weak = s.weak := rfl
@[simp] theorem State.setChan_cores (c : Nat) (x : Channel) : (s.setChan c x).cores = s.cores := rfl
@[simp] theorem State.setChan_fab (c : Nat) (x : Channel) : (s.setChan c x).fab = s.fab := rfl
@[simp] theorem State.setChan_hbm (c : Nat) (x : Channel) : (s.setChan c x).hbm = s.hbm := rfl
@[simp] theorem State.setChan_ports (c : Nat) (x : Channel) : (s.setChan c x).ports = s.ports := rfl
@[simp] theorem State.setChan_funcs (c : Nat) (x : Channel) : (s.setChan c x).funcs = s.funcs := rfl
@[simp] theorem State.setChan_handles (c : Nat) (x : Channel) : (s.setChan c x).handles = s.handles := rfl
@[simp] theorem State.setChan_parts (c : Nat) (x : Channel) : (s.setChan c x).parts = s.parts := rfl
@[simp] theorem State.setChan_panel (c : Nat) (x : Channel) : (s.setChan c x).panel = s.panel := rfl
@[simp] theorem State.setChan_therm (c : Nat) (x : Channel) : (s.setChan c x).therm = s.therm := rfl
@[simp] theorem State.setChan_fac (c : Nat) (x : Channel) : (s.setChan c x).fac = s.fac := rfl
@[simp] theorem State.setChan_chk (c : Nat) (x : Channel) : (s.setChan c x).chk = s.chk := rfl
@[simp] theorem State.setChan_alm (c : Nat) (x : Channel) : (s.setChan c x).alm = s.alm := rfl
@[simp] theorem State.setChan_err (c : Nat) (x : Channel) : (s.setChan c x).err = s.err := rfl
@[simp] theorem State.setChan_mirror (c : Nat) (x : Channel) : (s.setChan c x).mirror = s.mirror := rfl
@[simp] theorem State.setChan_boot (c : Nat) (x : Channel) : (s.setChan c x).boot = s.boot := rfl
@[simp] theorem State.setChan_spdm (c : Nat) (x : Channel) : (s.setChan c x).spdm = s.spdm := rfl
@[simp] theorem State.setChan_free (c : Nat) (x : Channel) : (s.setChan c x).free = s.free := rfl
@[simp] theorem State.setChan_pending (c : Nat) (x : Channel) : (s.setChan c x).pending = s.pending := rfl

/-! setFreq -/

@[simp] theorem State.setFreq_part (f : Option FreqChange) : (s.setFreq f).part = s.part := rfl
@[simp] theorem State.setFreq_regs (f : Option FreqChange) : (s.setFreq f).regs = s.regs := rfl
@[simp] theorem State.setFreq_shadow (f : Option FreqChange) : (s.setFreq f).shadow = s.shadow := rfl
@[simp] theorem State.setFreq_mem (f : Option FreqChange) : (s.setFreq f).mem = s.mem := rfl
@[simp] theorem State.setFreq_poison (f : Option FreqChange) : (s.setFreq f).poison = s.poison := rfl
@[simp] theorem State.setFreq_weak (f : Option FreqChange) : (s.setFreq f).weak = s.weak := rfl
@[simp] theorem State.setFreq_cores (f : Option FreqChange) : (s.setFreq f).cores = s.cores := rfl
@[simp] theorem State.setFreq_fab (f : Option FreqChange) : (s.setFreq f).fab = s.fab := rfl
@[simp] theorem State.setFreq_hbm (f : Option FreqChange) : (s.setFreq f).hbm = s.hbm := rfl
@[simp] theorem State.setFreq_ports (f : Option FreqChange) : (s.setFreq f).ports = s.ports := rfl
@[simp] theorem State.setFreq_funcs (f : Option FreqChange) : (s.setFreq f).funcs = s.funcs := rfl
@[simp] theorem State.setFreq_handles (f : Option FreqChange) : (s.setFreq f).handles = s.handles := rfl
@[simp] theorem State.setFreq_parts (f : Option FreqChange) : (s.setFreq f).parts = s.parts := rfl
@[simp] theorem State.setFreq_panel (f : Option FreqChange) : (s.setFreq f).panel = s.panel := rfl
@[simp] theorem State.setFreq_therm (f : Option FreqChange) : (s.setFreq f).therm = s.therm := rfl
@[simp] theorem State.setFreq_fac (f : Option FreqChange) : (s.setFreq f).fac = s.fac := rfl
@[simp] theorem State.setFreq_chk (f : Option FreqChange) : (s.setFreq f).chk = s.chk := rfl
@[simp] theorem State.setFreq_alm (f : Option FreqChange) : (s.setFreq f).alm = s.alm := rfl
@[simp] theorem State.setFreq_err (f : Option FreqChange) : (s.setFreq f).err = s.err := rfl
@[simp] theorem State.setFreq_mirror (f : Option FreqChange) : (s.setFreq f).mirror = s.mirror := rfl
@[simp] theorem State.setFreq_boot (f : Option FreqChange) : (s.setFreq f).boot = s.boot := rfl
@[simp] theorem State.setFreq_spdm (f : Option FreqChange) : (s.setFreq f).spdm = s.spdm := rfl
@[simp] theorem State.setFreq_free (f : Option FreqChange) : (s.setFreq f).free = s.free := rfl
@[simp] theorem State.setFreq_pending (f : Option FreqChange) : (s.setFreq f).pending = s.pending := rfl

/-! setPcl -/

@[simp] theorem State.setPcl_part (n : Nat) (x : Pcl) : (s.setPcl n x).part = s.part := rfl
@[simp] theorem State.setPcl_regs (n : Nat) (x : Pcl) : (s.setPcl n x).regs = s.regs := rfl
@[simp] theorem State.setPcl_shadow (n : Nat) (x : Pcl) : (s.setPcl n x).shadow = s.shadow := rfl
@[simp] theorem State.setPcl_mem (n : Nat) (x : Pcl) : (s.setPcl n x).mem = s.mem := rfl
@[simp] theorem State.setPcl_poison (n : Nat) (x : Pcl) : (s.setPcl n x).poison = s.poison := rfl
@[simp] theorem State.setPcl_weak (n : Nat) (x : Pcl) : (s.setPcl n x).weak = s.weak := rfl
@[simp] theorem State.setPcl_cores (n : Nat) (x : Pcl) : (s.setPcl n x).cores = s.cores := rfl
@[simp] theorem State.setPcl_fab (n : Nat) (x : Pcl) : (s.setPcl n x).fab = s.fab := rfl
@[simp] theorem State.setPcl_hbm (n : Nat) (x : Pcl) : (s.setPcl n x).hbm = s.hbm := rfl
@[simp] theorem State.setPcl_ports (n : Nat) (x : Pcl) : (s.setPcl n x).ports = s.ports := rfl
@[simp] theorem State.setPcl_funcs (n : Nat) (x : Pcl) : (s.setPcl n x).funcs = s.funcs := rfl
@[simp] theorem State.setPcl_handles (n : Nat) (x : Pcl) : (s.setPcl n x).handles = s.handles := rfl
@[simp] theorem State.setPcl_parts (n : Nat) (x : Pcl) : (s.setPcl n x).parts = s.parts := rfl
@[simp] theorem State.setPcl_panel (n : Nat) (x : Pcl) : (s.setPcl n x).panel = s.panel := rfl
@[simp] theorem State.setPcl_therm (n : Nat) (x : Pcl) : (s.setPcl n x).therm = s.therm := rfl
@[simp] theorem State.setPcl_fac (n : Nat) (x : Pcl) : (s.setPcl n x).fac = s.fac := rfl
@[simp] theorem State.setPcl_chk (n : Nat) (x : Pcl) : (s.setPcl n x).chk = s.chk := rfl
@[simp] theorem State.setPcl_alm (n : Nat) (x : Pcl) : (s.setPcl n x).alm = s.alm := rfl
@[simp] theorem State.setPcl_err (n : Nat) (x : Pcl) : (s.setPcl n x).err = s.err := rfl
@[simp] theorem State.setPcl_mirror (n : Nat) (x : Pcl) : (s.setPcl n x).mirror = s.mirror := rfl
@[simp] theorem State.setPcl_boot (n : Nat) (x : Pcl) : (s.setPcl n x).boot = s.boot := rfl
@[simp] theorem State.setPcl_spdm (n : Nat) (x : Pcl) : (s.setPcl n x).spdm = s.spdm := rfl
@[simp] theorem State.setPcl_free (n : Nat) (x : Pcl) : (s.setPcl n x).free = s.free := rfl
@[simp] theorem State.setPcl_pending (n : Nat) (x : Pcl) : (s.setPcl n x).pending = s.pending := rfl

/-! setRx -/

@[simp] theorem State.setRx_part (h : Hdr) (x : Option Rx) : (s.setRx h x).part = s.part := rfl
@[simp] theorem State.setRx_regs (h : Hdr) (x : Option Rx) : (s.setRx h x).regs = s.regs := rfl
@[simp] theorem State.setRx_shadow (h : Hdr) (x : Option Rx) : (s.setRx h x).shadow = s.shadow := rfl
@[simp] theorem State.setRx_mem (h : Hdr) (x : Option Rx) : (s.setRx h x).mem = s.mem := rfl
@[simp] theorem State.setRx_poison (h : Hdr) (x : Option Rx) : (s.setRx h x).poison = s.poison := rfl
@[simp] theorem State.setRx_weak (h : Hdr) (x : Option Rx) : (s.setRx h x).weak = s.weak := rfl
@[simp] theorem State.setRx_cores (h : Hdr) (x : Option Rx) : (s.setRx h x).cores = s.cores := rfl
@[simp] theorem State.setRx_hbm (h : Hdr) (x : Option Rx) : (s.setRx h x).hbm = s.hbm := rfl
@[simp] theorem State.setRx_ports (h : Hdr) (x : Option Rx) : (s.setRx h x).ports = s.ports := rfl
@[simp] theorem State.setRx_funcs (h : Hdr) (x : Option Rx) : (s.setRx h x).funcs = s.funcs := rfl
@[simp] theorem State.setRx_handles (h : Hdr) (x : Option Rx) : (s.setRx h x).handles = s.handles := rfl
@[simp] theorem State.setRx_parts (h : Hdr) (x : Option Rx) : (s.setRx h x).parts = s.parts := rfl
@[simp] theorem State.setRx_panel (h : Hdr) (x : Option Rx) : (s.setRx h x).panel = s.panel := rfl
@[simp] theorem State.setRx_power (h : Hdr) (x : Option Rx) : (s.setRx h x).power = s.power := rfl
@[simp] theorem State.setRx_therm (h : Hdr) (x : Option Rx) : (s.setRx h x).therm = s.therm := rfl
@[simp] theorem State.setRx_fac (h : Hdr) (x : Option Rx) : (s.setRx h x).fac = s.fac := rfl
@[simp] theorem State.setRx_chk (h : Hdr) (x : Option Rx) : (s.setRx h x).chk = s.chk := rfl
@[simp] theorem State.setRx_alm (h : Hdr) (x : Option Rx) : (s.setRx h x).alm = s.alm := rfl
@[simp] theorem State.setRx_err (h : Hdr) (x : Option Rx) : (s.setRx h x).err = s.err := rfl
@[simp] theorem State.setRx_mirror (h : Hdr) (x : Option Rx) : (s.setRx h x).mirror = s.mirror := rfl
@[simp] theorem State.setRx_boot (h : Hdr) (x : Option Rx) : (s.setRx h x).boot = s.boot := rfl
@[simp] theorem State.setRx_spdm (h : Hdr) (x : Option Rx) : (s.setRx h x).spdm = s.spdm := rfl
@[simp] theorem State.setRx_free (h : Hdr) (x : Option Rx) : (s.setRx h x).free = s.free := rfl
@[simp] theorem State.setRx_pending (h : Hdr) (x : Option Rx) : (s.setRx h x).pending = s.pending := rfl

/-! addPacket -/

@[simp] theorem State.addPacket_part (h : Hdr) (d : W256) (l : PktLoc) : (s.addPacket h d l).part = s.part := rfl
@[simp] theorem State.addPacket_regs (h : Hdr) (d : W256) (l : PktLoc) : (s.addPacket h d l).regs = s.regs := rfl
@[simp] theorem State.addPacket_shadow (h : Hdr) (d : W256) (l : PktLoc) : (s.addPacket h d l).shadow = s.shadow := rfl
@[simp] theorem State.addPacket_mem (h : Hdr) (d : W256) (l : PktLoc) : (s.addPacket h d l).mem = s.mem := rfl
@[simp] theorem State.addPacket_poison (h : Hdr) (d : W256) (l : PktLoc) : (s.addPacket h d l).poison = s.poison := rfl
@[simp] theorem State.addPacket_weak (h : Hdr) (d : W256) (l : PktLoc) : (s.addPacket h d l).weak = s.weak := rfl
@[simp] theorem State.addPacket_cores (h : Hdr) (d : W256) (l : PktLoc) : (s.addPacket h d l).cores = s.cores := rfl
@[simp] theorem State.addPacket_hbm (h : Hdr) (d : W256) (l : PktLoc) : (s.addPacket h d l).hbm = s.hbm := rfl
@[simp] theorem State.addPacket_ports (h : Hdr) (d : W256) (l : PktLoc) : (s.addPacket h d l).ports = s.ports := rfl
@[simp] theorem State.addPacket_funcs (h : Hdr) (d : W256) (l : PktLoc) : (s.addPacket h d l).funcs = s.funcs := rfl
@[simp] theorem State.addPacket_handles (h : Hdr) (d : W256) (l : PktLoc) : (s.addPacket h d l).handles = s.handles := rfl
@[simp] theorem State.addPacket_parts (h : Hdr) (d : W256) (l : PktLoc) : (s.addPacket h d l).parts = s.parts := rfl
@[simp] theorem State.addPacket_panel (h : Hdr) (d : W256) (l : PktLoc) : (s.addPacket h d l).panel = s.panel := rfl
@[simp] theorem State.addPacket_power (h : Hdr) (d : W256) (l : PktLoc) : (s.addPacket h d l).power = s.power := rfl
@[simp] theorem State.addPacket_therm (h : Hdr) (d : W256) (l : PktLoc) : (s.addPacket h d l).therm = s.therm := rfl
@[simp] theorem State.addPacket_fac (h : Hdr) (d : W256) (l : PktLoc) : (s.addPacket h d l).fac = s.fac := rfl
@[simp] theorem State.addPacket_chk (h : Hdr) (d : W256) (l : PktLoc) : (s.addPacket h d l).chk = s.chk := rfl
@[simp] theorem State.addPacket_alm (h : Hdr) (d : W256) (l : PktLoc) : (s.addPacket h d l).alm = s.alm := rfl
@[simp] theorem State.addPacket_err (h : Hdr) (d : W256) (l : PktLoc) : (s.addPacket h d l).err = s.err := rfl
@[simp] theorem State.addPacket_mirror (h : Hdr) (d : W256) (l : PktLoc) : (s.addPacket h d l).mirror = s.mirror := rfl
@[simp] theorem State.addPacket_boot (h : Hdr) (d : W256) (l : PktLoc) : (s.addPacket h d l).boot = s.boot := rfl
@[simp] theorem State.addPacket_spdm (h : Hdr) (d : W256) (l : PktLoc) : (s.addPacket h d l).spdm = s.spdm := rfl
@[simp] theorem State.addPacket_free (h : Hdr) (d : W256) (l : PktLoc) : (s.addPacket h d l).free = s.free := rfl
@[simp] theorem State.addPacket_pending (h : Hdr) (d : W256) (l : PktLoc) : (s.addPacket h d l).pending = s.pending := rfl

/-! setLink -/

@[simp] theorem State.setLink_part (r p : Nat) (l : Link) : (s.setLink r p l).part = s.part := rfl
@[simp] theorem State.setLink_regs (r p : Nat) (l : Link) : (s.setLink r p l).regs = s.regs := rfl
@[simp] theorem State.setLink_shadow (r p : Nat) (l : Link) : (s.setLink r p l).shadow = s.shadow := rfl
@[simp] theorem State.setLink_mem (r p : Nat) (l : Link) : (s.setLink r p l).mem = s.mem := rfl
@[simp] theorem State.setLink_poison (r p : Nat) (l : Link) : (s.setLink r p l).poison = s.poison := rfl
@[simp] theorem State.setLink_weak (r p : Nat) (l : Link) : (s.setLink r p l).weak = s.weak := rfl
@[simp] theorem State.setLink_cores (r p : Nat) (l : Link) : (s.setLink r p l).cores = s.cores := rfl
@[simp] theorem State.setLink_hbm (r p : Nat) (l : Link) : (s.setLink r p l).hbm = s.hbm := rfl
@[simp] theorem State.setLink_ports (r p : Nat) (l : Link) : (s.setLink r p l).ports = s.ports := rfl
@[simp] theorem State.setLink_funcs (r p : Nat) (l : Link) : (s.setLink r p l).funcs = s.funcs := rfl
@[simp] theorem State.setLink_handles (r p : Nat) (l : Link) : (s.setLink r p l).handles = s.handles := rfl
@[simp] theorem State.setLink_parts (r p : Nat) (l : Link) : (s.setLink r p l).parts = s.parts := rfl
@[simp] theorem State.setLink_panel (r p : Nat) (l : Link) : (s.setLink r p l).panel = s.panel := rfl
@[simp] theorem State.setLink_power (r p : Nat) (l : Link) : (s.setLink r p l).power = s.power := rfl
@[simp] theorem State.setLink_therm (r p : Nat) (l : Link) : (s.setLink r p l).therm = s.therm := rfl
@[simp] theorem State.setLink_fac (r p : Nat) (l : Link) : (s.setLink r p l).fac = s.fac := rfl
@[simp] theorem State.setLink_chk (r p : Nat) (l : Link) : (s.setLink r p l).chk = s.chk := rfl
@[simp] theorem State.setLink_alm (r p : Nat) (l : Link) : (s.setLink r p l).alm = s.alm := rfl
@[simp] theorem State.setLink_err (r p : Nat) (l : Link) : (s.setLink r p l).err = s.err := rfl
@[simp] theorem State.setLink_mirror (r p : Nat) (l : Link) : (s.setLink r p l).mirror = s.mirror := rfl
@[simp] theorem State.setLink_boot (r p : Nat) (l : Link) : (s.setLink r p l).boot = s.boot := rfl
@[simp] theorem State.setLink_spdm (r p : Nat) (l : Link) : (s.setLink r p l).spdm = s.spdm := rfl
@[simp] theorem State.setLink_free (r p : Nat) (l : Link) : (s.setLink r p l).free = s.free := rfl
@[simp] theorem State.setLink_pending (r p : Nat) (l : Link) : (s.setLink r p l).pending = s.pending := rfl

/-! addTx -/

@[simp] theorem State.addTx_part (t : Tx) : (s.addTx t).part = s.part := rfl
@[simp] theorem State.addTx_regs (t : Tx) : (s.addTx t).regs = s.regs := rfl
@[simp] theorem State.addTx_shadow (t : Tx) : (s.addTx t).shadow = s.shadow := rfl
@[simp] theorem State.addTx_mem (t : Tx) : (s.addTx t).mem = s.mem := rfl
@[simp] theorem State.addTx_poison (t : Tx) : (s.addTx t).poison = s.poison := rfl
@[simp] theorem State.addTx_weak (t : Tx) : (s.addTx t).weak = s.weak := rfl
@[simp] theorem State.addTx_cores (t : Tx) : (s.addTx t).cores = s.cores := rfl
@[simp] theorem State.addTx_hbm (t : Tx) : (s.addTx t).hbm = s.hbm := rfl
@[simp] theorem State.addTx_ports (t : Tx) : (s.addTx t).ports = s.ports := rfl
@[simp] theorem State.addTx_funcs (t : Tx) : (s.addTx t).funcs = s.funcs := rfl
@[simp] theorem State.addTx_handles (t : Tx) : (s.addTx t).handles = s.handles := rfl
@[simp] theorem State.addTx_parts (t : Tx) : (s.addTx t).parts = s.parts := rfl
@[simp] theorem State.addTx_panel (t : Tx) : (s.addTx t).panel = s.panel := rfl
@[simp] theorem State.addTx_power (t : Tx) : (s.addTx t).power = s.power := rfl
@[simp] theorem State.addTx_therm (t : Tx) : (s.addTx t).therm = s.therm := rfl
@[simp] theorem State.addTx_fac (t : Tx) : (s.addTx t).fac = s.fac := rfl
@[simp] theorem State.addTx_chk (t : Tx) : (s.addTx t).chk = s.chk := rfl
@[simp] theorem State.addTx_alm (t : Tx) : (s.addTx t).alm = s.alm := rfl
@[simp] theorem State.addTx_err (t : Tx) : (s.addTx t).err = s.err := rfl
@[simp] theorem State.addTx_mirror (t : Tx) : (s.addTx t).mirror = s.mirror := rfl
@[simp] theorem State.addTx_boot (t : Tx) : (s.addTx t).boot = s.boot := rfl
@[simp] theorem State.addTx_spdm (t : Tx) : (s.addTx t).spdm = s.spdm := rfl
@[simp] theorem State.addTx_free (t : Tx) : (s.addTx t).free = s.free := rfl
@[simp] theorem State.addTx_pending (t : Tx) : (s.addTx t).pending = s.pending := rfl

/-! setLines -/

@[simp] theorem State.setLines_part (d : Nat) (l : List CLine) : (s.setLines d l).part = s.part := rfl
@[simp] theorem State.setLines_regs (d : Nat) (l : List CLine) : (s.setLines d l).regs = s.regs := rfl
@[simp] theorem State.setLines_shadow (d : Nat) (l : List CLine) : (s.setLines d l).shadow = s.shadow := rfl
@[simp] theorem State.setLines_mem (d : Nat) (l : List CLine) : (s.setLines d l).mem = s.mem := rfl
@[simp] theorem State.setLines_poison (d : Nat) (l : List CLine) : (s.setLines d l).poison = s.poison := rfl
@[simp] theorem State.setLines_weak (d : Nat) (l : List CLine) : (s.setLines d l).weak = s.weak := rfl
@[simp] theorem State.setLines_cores (d : Nat) (l : List CLine) : (s.setLines d l).cores = s.cores := rfl
@[simp] theorem State.setLines_hbm (d : Nat) (l : List CLine) : (s.setLines d l).hbm = s.hbm := rfl
@[simp] theorem State.setLines_ports (d : Nat) (l : List CLine) : (s.setLines d l).ports = s.ports := rfl
@[simp] theorem State.setLines_funcs (d : Nat) (l : List CLine) : (s.setLines d l).funcs = s.funcs := rfl
@[simp] theorem State.setLines_handles (d : Nat) (l : List CLine) : (s.setLines d l).handles = s.handles := rfl
@[simp] theorem State.setLines_parts (d : Nat) (l : List CLine) : (s.setLines d l).parts = s.parts := rfl
@[simp] theorem State.setLines_panel (d : Nat) (l : List CLine) : (s.setLines d l).panel = s.panel := rfl
@[simp] theorem State.setLines_power (d : Nat) (l : List CLine) : (s.setLines d l).power = s.power := rfl
@[simp] theorem State.setLines_therm (d : Nat) (l : List CLine) : (s.setLines d l).therm = s.therm := rfl
@[simp] theorem State.setLines_fac (d : Nat) (l : List CLine) : (s.setLines d l).fac = s.fac := rfl
@[simp] theorem State.setLines_chk (d : Nat) (l : List CLine) : (s.setLines d l).chk = s.chk := rfl
@[simp] theorem State.setLines_alm (d : Nat) (l : List CLine) : (s.setLines d l).alm = s.alm := rfl
@[simp] theorem State.setLines_err (d : Nat) (l : List CLine) : (s.setLines d l).err = s.err := rfl
@[simp] theorem State.setLines_mirror (d : Nat) (l : List CLine) : (s.setLines d l).mirror = s.mirror := rfl
@[simp] theorem State.setLines_boot (d : Nat) (l : List CLine) : (s.setLines d l).boot = s.boot := rfl
@[simp] theorem State.setLines_spdm (d : Nat) (l : List CLine) : (s.setLines d l).spdm = s.spdm := rfl
@[simp] theorem State.setLines_free (d : Nat) (l : List CLine) : (s.setLines d l).free = s.free := rfl
@[simp] theorem State.setLines_pending (d : Nat) (l : List CLine) : (s.setLines d l).pending = s.pending := rfl

/-! setFacCh -/

@[simp] theorem State.setFacCh_part (c : Nat) (x : FacChan) : (s.setFacCh c x).part = s.part := rfl
@[simp] theorem State.setFacCh_regs (c : Nat) (x : FacChan) : (s.setFacCh c x).regs = s.regs := rfl
@[simp] theorem State.setFacCh_shadow (c : Nat) (x : FacChan) : (s.setFacCh c x).shadow = s.shadow := rfl
@[simp] theorem State.setFacCh_mem (c : Nat) (x : FacChan) : (s.setFacCh c x).mem = s.mem := rfl
@[simp] theorem State.setFacCh_poison (c : Nat) (x : FacChan) : (s.setFacCh c x).poison = s.poison := rfl
@[simp] theorem State.setFacCh_weak (c : Nat) (x : FacChan) : (s.setFacCh c x).weak = s.weak := rfl
@[simp] theorem State.setFacCh_cores (c : Nat) (x : FacChan) : (s.setFacCh c x).cores = s.cores := rfl
@[simp] theorem State.setFacCh_fab (c : Nat) (x : FacChan) : (s.setFacCh c x).fab = s.fab := rfl
@[simp] theorem State.setFacCh_hbm (c : Nat) (x : FacChan) : (s.setFacCh c x).hbm = s.hbm := rfl
@[simp] theorem State.setFacCh_ports (c : Nat) (x : FacChan) : (s.setFacCh c x).ports = s.ports := rfl
@[simp] theorem State.setFacCh_funcs (c : Nat) (x : FacChan) : (s.setFacCh c x).funcs = s.funcs := rfl
@[simp] theorem State.setFacCh_handles (c : Nat) (x : FacChan) : (s.setFacCh c x).handles = s.handles := rfl
@[simp] theorem State.setFacCh_parts (c : Nat) (x : FacChan) : (s.setFacCh c x).parts = s.parts := rfl
@[simp] theorem State.setFacCh_panel (c : Nat) (x : FacChan) : (s.setFacCh c x).panel = s.panel := rfl
@[simp] theorem State.setFacCh_power (c : Nat) (x : FacChan) : (s.setFacCh c x).power = s.power := rfl
@[simp] theorem State.setFacCh_therm (c : Nat) (x : FacChan) : (s.setFacCh c x).therm = s.therm := rfl
@[simp] theorem State.setFacCh_chk (c : Nat) (x : FacChan) : (s.setFacCh c x).chk = s.chk := rfl
@[simp] theorem State.setFacCh_alm (c : Nat) (x : FacChan) : (s.setFacCh c x).alm = s.alm := rfl
@[simp] theorem State.setFacCh_err (c : Nat) (x : FacChan) : (s.setFacCh c x).err = s.err := rfl
@[simp] theorem State.setFacCh_mirror (c : Nat) (x : FacChan) : (s.setFacCh c x).mirror = s.mirror := rfl
@[simp] theorem State.setFacCh_boot (c : Nat) (x : FacChan) : (s.setFacCh c x).boot = s.boot := rfl
@[simp] theorem State.setFacCh_spdm (c : Nat) (x : FacChan) : (s.setFacCh c x).spdm = s.spdm := rfl
@[simp] theorem State.setFacCh_free (c : Nat) (x : FacChan) : (s.setFacCh c x).free = s.free := rfl
@[simp] theorem State.setFacCh_pending (c : Nat) (x : FacChan) : (s.setFacCh c x).pending = s.pending := rfl

/-! setCtl -/

@[simp] theorem State.setCtl_part (m : Nat) (c : Ctl) : (s.setCtl m c).part = s.part := rfl
@[simp] theorem State.setCtl_regs (m : Nat) (c : Ctl) : (s.setCtl m c).regs = s.regs := rfl
@[simp] theorem State.setCtl_shadow (m : Nat) (c : Ctl) : (s.setCtl m c).shadow = s.shadow := rfl
@[simp] theorem State.setCtl_mem (m : Nat) (c : Ctl) : (s.setCtl m c).mem = s.mem := rfl
@[simp] theorem State.setCtl_poison (m : Nat) (c : Ctl) : (s.setCtl m c).poison = s.poison := rfl
@[simp] theorem State.setCtl_weak (m : Nat) (c : Ctl) : (s.setCtl m c).weak = s.weak := rfl
@[simp] theorem State.setCtl_cores (m : Nat) (c : Ctl) : (s.setCtl m c).cores = s.cores := rfl
@[simp] theorem State.setCtl_fab (m : Nat) (c : Ctl) : (s.setCtl m c).fab = s.fab := rfl
@[simp] theorem State.setCtl_hbm (m : Nat) (c : Ctl) : (s.setCtl m c).hbm = s.hbm := rfl
@[simp] theorem State.setCtl_ports (m : Nat) (c : Ctl) : (s.setCtl m c).ports = s.ports := rfl
@[simp] theorem State.setCtl_funcs (m : Nat) (c : Ctl) : (s.setCtl m c).funcs = s.funcs := rfl
@[simp] theorem State.setCtl_handles (m : Nat) (c : Ctl) : (s.setCtl m c).handles = s.handles := rfl
@[simp] theorem State.setCtl_parts (m : Nat) (c : Ctl) : (s.setCtl m c).parts = s.parts := rfl
@[simp] theorem State.setCtl_panel (m : Nat) (c : Ctl) : (s.setCtl m c).panel = s.panel := rfl
@[simp] theorem State.setCtl_power (m : Nat) (c : Ctl) : (s.setCtl m c).power = s.power := rfl
@[simp] theorem State.setCtl_therm (m : Nat) (c : Ctl) : (s.setCtl m c).therm = s.therm := rfl
@[simp] theorem State.setCtl_fac (m : Nat) (c : Ctl) : (s.setCtl m c).fac = s.fac := rfl
@[simp] theorem State.setCtl_chk (m : Nat) (c : Ctl) : (s.setCtl m c).chk = s.chk := rfl
@[simp] theorem State.setCtl_alm (m : Nat) (c : Ctl) : (s.setCtl m c).alm = s.alm := rfl
@[simp] theorem State.setCtl_err (m : Nat) (c : Ctl) : (s.setCtl m c).err = s.err := rfl
@[simp] theorem State.setCtl_mirror (m : Nat) (c : Ctl) : (s.setCtl m c).mirror = s.mirror := rfl
@[simp] theorem State.setCtl_spdm (m : Nat) (c : Ctl) : (s.setCtl m c).spdm = s.spdm := rfl
@[simp] theorem State.setCtl_free (m : Nat) (c : Ctl) : (s.setCtl m c).free = s.free := rfl
@[simp] theorem State.setCtl_pending (m : Nat) (c : Ctl) : (s.setCtl m c).pending = s.pending := rfl

/-! protWrite -/

@[simp] theorem State.protWrite_part (a n z : Nat) : (s.protWrite a n z).part = s.part := rfl
@[simp] theorem State.protWrite_regs (a n z : Nat) : (s.protWrite a n z).regs = s.regs := rfl
@[simp] theorem State.protWrite_shadow (a n z : Nat) : (s.protWrite a n z).shadow = s.shadow := rfl
@[simp] theorem State.protWrite_mem (a n z : Nat) : (s.protWrite a n z).mem = s.mem := rfl
@[simp] theorem State.protWrite_cores (a n z : Nat) : (s.protWrite a n z).cores = s.cores := rfl
@[simp] theorem State.protWrite_fab (a n z : Nat) : (s.protWrite a n z).fab = s.fab := rfl
@[simp] theorem State.protWrite_hbm (a n z : Nat) : (s.protWrite a n z).hbm = s.hbm := rfl
@[simp] theorem State.protWrite_ports (a n z : Nat) : (s.protWrite a n z).ports = s.ports := rfl
@[simp] theorem State.protWrite_funcs (a n z : Nat) : (s.protWrite a n z).funcs = s.funcs := rfl
@[simp] theorem State.protWrite_handles (a n z : Nat) : (s.protWrite a n z).handles = s.handles := rfl
@[simp] theorem State.protWrite_parts (a n z : Nat) : (s.protWrite a n z).parts = s.parts := rfl
@[simp] theorem State.protWrite_panel (a n z : Nat) : (s.protWrite a n z).panel = s.panel := rfl
@[simp] theorem State.protWrite_power (a n z : Nat) : (s.protWrite a n z).power = s.power := rfl
@[simp] theorem State.protWrite_therm (a n z : Nat) : (s.protWrite a n z).therm = s.therm := rfl
@[simp] theorem State.protWrite_fac (a n z : Nat) : (s.protWrite a n z).fac = s.fac := rfl
@[simp] theorem State.protWrite_chk (a n z : Nat) : (s.protWrite a n z).chk = s.chk := rfl
@[simp] theorem State.protWrite_alm (a n z : Nat) : (s.protWrite a n z).alm = s.alm := rfl
@[simp] theorem State.protWrite_err (a n z : Nat) : (s.protWrite a n z).err = s.err := rfl
@[simp] theorem State.protWrite_mirror (a n z : Nat) : (s.protWrite a n z).mirror = s.mirror := rfl
@[simp] theorem State.protWrite_boot (a n z : Nat) : (s.protWrite a n z).boot = s.boot := rfl
@[simp] theorem State.protWrite_spdm (a n z : Nat) : (s.protWrite a n z).spdm = s.spdm := rfl
@[simp] theorem State.protWrite_free (a n z : Nat) : (s.protWrite a n z).free = s.free := rfl
@[simp] theorem State.protWrite_pending (a n z : Nat) : (s.protWrite a n z).pending = s.pending := rfl

/-! store -/

@[simp] theorem State.store_part (a n v z : Nat) : (s.store a n v z).part = s.part := rfl
@[simp] theorem State.store_regs (a n v z : Nat) : (s.store a n v z).regs = s.regs := rfl
@[simp] theorem State.store_shadow (a n v z : Nat) : (s.store a n v z).shadow = s.shadow := rfl
@[simp] theorem State.store_cores (a n v z : Nat) : (s.store a n v z).cores = s.cores := rfl
@[simp] theorem State.store_hbm (a n v z : Nat) : (s.store a n v z).hbm = s.hbm := rfl
@[simp] theorem State.store_ports (a n v z : Nat) : (s.store a n v z).ports = s.ports := rfl
@[simp] theorem State.store_funcs (a n v z : Nat) : (s.store a n v z).funcs = s.funcs := rfl
@[simp] theorem State.store_handles (a n v z : Nat) : (s.store a n v z).handles = s.handles := rfl
@[simp] theorem State.store_parts (a n v z : Nat) : (s.store a n v z).parts = s.parts := rfl
@[simp] theorem State.store_panel (a n v z : Nat) : (s.store a n v z).panel = s.panel := rfl
@[simp] theorem State.store_power (a n v z : Nat) : (s.store a n v z).power = s.power := rfl
@[simp] theorem State.store_therm (a n v z : Nat) : (s.store a n v z).therm = s.therm := rfl
@[simp] theorem State.store_fac (a n v z : Nat) : (s.store a n v z).fac = s.fac := rfl
@[simp] theorem State.store_chk (a n v z : Nat) : (s.store a n v z).chk = s.chk := rfl
@[simp] theorem State.store_alm (a n v z : Nat) : (s.store a n v z).alm = s.alm := rfl
@[simp] theorem State.store_err (a n v z : Nat) : (s.store a n v z).err = s.err := rfl
@[simp] theorem State.store_mirror (a n v z : Nat) : (s.store a n v z).mirror = s.mirror := rfl
@[simp] theorem State.store_boot (a n v z : Nat) : (s.store a n v z).boot = s.boot := rfl
@[simp] theorem State.store_spdm (a n v z : Nat) : (s.store a n v z).spdm = s.spdm := rfl
@[simp] theorem State.store_free (a n v z : Nat) : (s.store a n v z).free = s.free := rfl
@[simp] theorem State.store_pending (a n v z : Nat) : (s.store a n v z).pending = s.pending := rfl

/-! poisonRange -/

@[simp] theorem State.poisonRange_part (a n z : Nat) : (s.poisonRange a n z).part = s.part := rfl
@[simp] theorem State.poisonRange_regs (a n z : Nat) : (s.poisonRange a n z).regs = s.regs := rfl
@[simp] theorem State.poisonRange_shadow (a n z : Nat) : (s.poisonRange a n z).shadow = s.shadow := rfl
@[simp] theorem State.poisonRange_mem (a n z : Nat) : (s.poisonRange a n z).mem = s.mem := rfl
@[simp] theorem State.poisonRange_weak (a n z : Nat) : (s.poisonRange a n z).weak = s.weak := rfl
@[simp] theorem State.poisonRange_cores (a n z : Nat) : (s.poisonRange a n z).cores = s.cores := rfl
@[simp] theorem State.poisonRange_fab (a n z : Nat) : (s.poisonRange a n z).fab = s.fab := rfl
@[simp] theorem State.poisonRange_hbm (a n z : Nat) : (s.poisonRange a n z).hbm = s.hbm := rfl
@[simp] theorem State.poisonRange_ports (a n z : Nat) : (s.poisonRange a n z).ports = s.ports := rfl
@[simp] theorem State.poisonRange_funcs (a n z : Nat) : (s.poisonRange a n z).funcs = s.funcs := rfl
@[simp] theorem State.poisonRange_handles (a n z : Nat) : (s.poisonRange a n z).handles = s.handles := rfl
@[simp] theorem State.poisonRange_parts (a n z : Nat) : (s.poisonRange a n z).parts = s.parts := rfl
@[simp] theorem State.poisonRange_panel (a n z : Nat) : (s.poisonRange a n z).panel = s.panel := rfl
@[simp] theorem State.poisonRange_power (a n z : Nat) : (s.poisonRange a n z).power = s.power := rfl
@[simp] theorem State.poisonRange_therm (a n z : Nat) : (s.poisonRange a n z).therm = s.therm := rfl
@[simp] theorem State.poisonRange_fac (a n z : Nat) : (s.poisonRange a n z).fac = s.fac := rfl
@[simp] theorem State.poisonRange_chk (a n z : Nat) : (s.poisonRange a n z).chk = s.chk := rfl
@[simp] theorem State.poisonRange_alm (a n z : Nat) : (s.poisonRange a n z).alm = s.alm := rfl
@[simp] theorem State.poisonRange_err (a n z : Nat) : (s.poisonRange a n z).err = s.err := rfl
@[simp] theorem State.poisonRange_mirror (a n z : Nat) : (s.poisonRange a n z).mirror = s.mirror := rfl
@[simp] theorem State.poisonRange_boot (a n z : Nat) : (s.poisonRange a n z).boot = s.boot := rfl
@[simp] theorem State.poisonRange_spdm (a n z : Nat) : (s.poisonRange a n z).spdm = s.spdm := rfl
@[simp] theorem State.poisonRange_free (a n z : Nat) : (s.poisonRange a n z).free = s.free := rfl
@[simp] theorem State.poisonRange_pending (a n z : Nat) : (s.poisonRange a n z).pending = s.pending := rfl

/-! zeroRange -/

@[simp] theorem State.zeroRange_part (lo hi : Nat) : (s.zeroRange lo hi).part = s.part := rfl
@[simp] theorem State.zeroRange_regs (lo hi : Nat) : (s.zeroRange lo hi).regs = s.regs := rfl
@[simp] theorem State.zeroRange_shadow (lo hi : Nat) : (s.zeroRange lo hi).shadow = s.shadow := rfl
@[simp] theorem State.zeroRange_cores (lo hi : Nat) : (s.zeroRange lo hi).cores = s.cores := rfl
@[simp] theorem State.zeroRange_hbm (lo hi : Nat) : (s.zeroRange lo hi).hbm = s.hbm := rfl
@[simp] theorem State.zeroRange_ports (lo hi : Nat) : (s.zeroRange lo hi).ports = s.ports := rfl
@[simp] theorem State.zeroRange_funcs (lo hi : Nat) : (s.zeroRange lo hi).funcs = s.funcs := rfl
@[simp] theorem State.zeroRange_handles (lo hi : Nat) : (s.zeroRange lo hi).handles = s.handles := rfl
@[simp] theorem State.zeroRange_parts (lo hi : Nat) : (s.zeroRange lo hi).parts = s.parts := rfl
@[simp] theorem State.zeroRange_panel (lo hi : Nat) : (s.zeroRange lo hi).panel = s.panel := rfl
@[simp] theorem State.zeroRange_power (lo hi : Nat) : (s.zeroRange lo hi).power = s.power := rfl
@[simp] theorem State.zeroRange_therm (lo hi : Nat) : (s.zeroRange lo hi).therm = s.therm := rfl
@[simp] theorem State.zeroRange_fac (lo hi : Nat) : (s.zeroRange lo hi).fac = s.fac := rfl
@[simp] theorem State.zeroRange_chk (lo hi : Nat) : (s.zeroRange lo hi).chk = s.chk := rfl
@[simp] theorem State.zeroRange_alm (lo hi : Nat) : (s.zeroRange lo hi).alm = s.alm := rfl
@[simp] theorem State.zeroRange_err (lo hi : Nat) : (s.zeroRange lo hi).err = s.err := rfl
@[simp] theorem State.zeroRange_mirror (lo hi : Nat) : (s.zeroRange lo hi).mirror = s.mirror := rfl
@[simp] theorem State.zeroRange_boot (lo hi : Nat) : (s.zeroRange lo hi).boot = s.boot := rfl
@[simp] theorem State.zeroRange_spdm (lo hi : Nat) : (s.zeroRange lo hi).spdm = s.spdm := rfl
@[simp] theorem State.zeroRange_free (lo hi : Nat) : (s.zeroRange lo hi).free = s.free := rfl
@[simp] theorem State.zeroRange_pending (lo hi : Nat) : (s.zeroRange lo hi).pending = s.pending := rfl

/-! hostWrite -/

@[simp] theorem State.hostWrite_part (p a n v : Nat) : (s.hostWrite p a n v).part = s.part := rfl
@[simp] theorem State.hostWrite_regs (p a n v : Nat) : (s.hostWrite p a n v).regs = s.regs := rfl
@[simp] theorem State.hostWrite_shadow (p a n v : Nat) : (s.hostWrite p a n v).shadow = s.shadow := rfl
@[simp] theorem State.hostWrite_poison (p a n v : Nat) : (s.hostWrite p a n v).poison = s.poison := rfl
@[simp] theorem State.hostWrite_weak (p a n v : Nat) : (s.hostWrite p a n v).weak = s.weak := rfl
@[simp] theorem State.hostWrite_cores (p a n v : Nat) : (s.hostWrite p a n v).cores = s.cores := rfl
@[simp] theorem State.hostWrite_fab (p a n v : Nat) : (s.hostWrite p a n v).fab = s.fab := rfl
@[simp] theorem State.hostWrite_hbm (p a n v : Nat) : (s.hostWrite p a n v).hbm = s.hbm := rfl
@[simp] theorem State.hostWrite_ports (p a n v : Nat) : (s.hostWrite p a n v).ports = s.ports := rfl
@[simp] theorem State.hostWrite_funcs (p a n v : Nat) : (s.hostWrite p a n v).funcs = s.funcs := rfl
@[simp] theorem State.hostWrite_handles (p a n v : Nat) : (s.hostWrite p a n v).handles = s.handles := rfl
@[simp] theorem State.hostWrite_parts (p a n v : Nat) : (s.hostWrite p a n v).parts = s.parts := rfl
@[simp] theorem State.hostWrite_panel (p a n v : Nat) : (s.hostWrite p a n v).panel = s.panel := rfl
@[simp] theorem State.hostWrite_power (p a n v : Nat) : (s.hostWrite p a n v).power = s.power := rfl
@[simp] theorem State.hostWrite_therm (p a n v : Nat) : (s.hostWrite p a n v).therm = s.therm := rfl
@[simp] theorem State.hostWrite_fac (p a n v : Nat) : (s.hostWrite p a n v).fac = s.fac := rfl
@[simp] theorem State.hostWrite_chk (p a n v : Nat) : (s.hostWrite p a n v).chk = s.chk := rfl
@[simp] theorem State.hostWrite_alm (p a n v : Nat) : (s.hostWrite p a n v).alm = s.alm := rfl
@[simp] theorem State.hostWrite_err (p a n v : Nat) : (s.hostWrite p a n v).err = s.err := rfl
@[simp] theorem State.hostWrite_mirror (p a n v : Nat) : (s.hostWrite p a n v).mirror = s.mirror := rfl
@[simp] theorem State.hostWrite_boot (p a n v : Nat) : (s.hostWrite p a n v).boot = s.boot := rfl
@[simp] theorem State.hostWrite_spdm (p a n v : Nat) : (s.hostWrite p a n v).spdm = s.spdm := rfl
@[simp] theorem State.hostWrite_free (p a n v : Nat) : (s.hostWrite p a n v).free = s.free := rfl
@[simp] theorem State.hostWrite_pending (p a n v : Nat) : (s.hostWrite p a n v).pending = s.pending := rfl

/-! What the accessors show. -/

@[simp] theorem State.setReg_core (k : Nat) (w : W64) (site : Nat) : (s.setReg k w).core site = s.core site := rfl
@[simp] theorem State.setFld_core (k : Nat) (F : Fld) (v : Nat) (site : Nat) : (s.setFld k F v).core site = s.core site := rfl
@[simp] theorem State.addSat_core (k : Nat) (F : Fld) (n : Nat) (site : Nat) : (s.addSat k F n).core site = s.core site := rfl
@[simp] theorem State.addWrap_core (k : Nat) (F : Fld) (n : Nat) (site : Nat) : (s.addWrap k F n).core site = s.core site := rfl
@[simp] theorem State.setCore_reg (g : Nat) (c : Core) (i d : Nat) : (s.setCore g c).reg i d = s.reg i d := rfl
@[simp] theorem State.setCore_fld (g : Nat) (c : Core) (i : Nat) (E : Fld) : (s.setCore g c).fld i E = s.fld i E := rfl
@[simp] theorem State.updCore_reg (g : Nat) (f : Core → Core) (i d : Nat) : (s.updCore g f).reg i d = s.reg i d := rfl
@[simp] theorem State.updCore_fld (g : Nat) (f : Core → Core) (i : Nat) (E : Fld) : (s.updCore g f).fld i E = s.fld i E := rfl
@[simp] theorem State.setMac_reg (g : Nat) (m : Mac) (i d : Nat) : (s.setMac g m).reg i d = s.reg i d := rfl
@[simp] theorem State.setMac_fld (g : Nat) (m : Mac) (i : Nat) (E : Fld) : (s.setMac g m).fld i E = s.fld i E := rfl
@[simp] theorem State.updDma_reg (g : Nat) (f : Dma → Dma) (i d : Nat) : (s.updDma g f).reg i d = s.reg i d := rfl
@[simp] theorem State.updDma_fld (g : Nat) (f : Dma → Dma) (i : Nat) (E : Fld) : (s.updDma g f).fld i E = s.fld i E := rfl
@[simp] theorem State.updEdge_reg (g : Nat) (f : Edge → Edge) (i d : Nat) : (s.updEdge g f).reg i d = s.reg i d := rfl
@[simp] theorem State.updEdge_fld (g : Nat) (f : Edge → Edge) (i : Nat) (E : Fld) : (s.updEdge g f).fld i E = s.fld i E := rfl
@[simp] theorem State.setPort_reg (p : Nat) (x : Port) (i d : Nat) : (s.setPort p x).reg i d = s.reg i d := rfl
@[simp] theorem State.setPort_fld (p : Nat) (x : Port) (i : Nat) (E : Fld) : (s.setPort p x).fld i E = s.fld i E := rfl
@[simp] theorem State.setPort_core (p : Nat) (x : Port) (site : Nat) : (s.setPort p x).core site = s.core site := rfl
@[simp] theorem State.setFunc_reg (p f : Nat) (x : Func) (i d : Nat) : (s.setFunc p f x).reg i d = s.reg i d := rfl
@[simp] theorem State.setFunc_fld (p f : Nat) (x : Func) (i : Nat) (E : Fld) : (s.setFunc p f x).fld i E = s.fld i E := rfl
@[simp] theorem State.setFunc_core (p f : Nat) (x : Func) (site : Nat) : (s.setFunc p f x).core site = s.core site := rfl
@[simp] theorem State.setPrt_reg (q : Nat) (x : Partition) (i d : Nat) : (s.setPrt q x).reg i d = s.reg i d := rfl
@[simp] theorem State.setPrt_fld (q : Nat) (x : Partition) (i : Nat) (E : Fld) : (s.setPrt q x).fld i E = s.fld i E := rfl
@[simp] theorem State.setPrt_core (q : Nat) (x : Partition) (site : Nat) : (s.setPrt q x).core site = s.core site := rfl
@[simp] theorem State.updPrt_reg (q : Nat) (f : Partition → Partition) (i d : Nat) : (s.updPrt q f).reg i d = s.reg i d := rfl
@[simp] theorem State.updPrt_fld (q : Nat) (f : Partition → Partition) (i : Nat) (E : Fld) : (s.updPrt q f).fld i E = s.fld i E := rfl
@[simp] theorem State.updPrt_core (q : Nat) (f : Partition → Partition) (site : Nat) : (s.updPrt q f).core site = s.core site := rfl
@[simp] theorem State.setAlm_reg (k v : Nat) (i d : Nat) : (s.setAlm k v).reg i d = s.reg i d := rfl
@[simp] theorem State.setAlm_fld (k v : Nat) (i : Nat) (E : Fld) : (s.setAlm k v).fld i E = s.fld i E := rfl
@[simp] theorem State.setAlm_core (k v : Nat) (site : Nat) : (s.setAlm k v).core site = s.core site := rfl
@[simp] theorem State.setChan_reg (c : Nat) (x : Channel) (i d : Nat) : (s.setChan c x).reg i d = s.reg i d := rfl
@[simp] theorem State.setChan_fld (c : Nat) (x : Channel) (i : Nat) (E : Fld) : (s.setChan c x).fld i E = s.fld i E := rfl
@[simp] theorem State.setChan_core (c : Nat) (x : Channel) (site : Nat) : (s.setChan c x).core site = s.core site := rfl
@[simp] theorem State.setFreq_reg (f : Option FreqChange) (i d : Nat) : (s.setFreq f).reg i d = s.reg i d := rfl
@[simp] theorem State.setFreq_fld (f : Option FreqChange) (i : Nat) (E : Fld) : (s.setFreq f).fld i E = s.fld i E := rfl
@[simp] theorem State.setFreq_core (f : Option FreqChange) (site : Nat) : (s.setFreq f).core site = s.core site := rfl
@[simp] theorem State.setPcl_reg (n : Nat) (x : Pcl) (i d : Nat) : (s.setPcl n x).reg i d = s.reg i d := rfl
@[simp] theorem State.setPcl_fld (n : Nat) (x : Pcl) (i : Nat) (E : Fld) : (s.setPcl n x).fld i E = s.fld i E := rfl
@[simp] theorem State.setPcl_core (n : Nat) (x : Pcl) (site : Nat) : (s.setPcl n x).core site = s.core site := rfl
@[simp] theorem State.setRx_reg (h : Hdr) (x : Option Rx) (i d : Nat) : (s.setRx h x).reg i d = s.reg i d := rfl
@[simp] theorem State.setRx_fld (h : Hdr) (x : Option Rx) (i : Nat) (E : Fld) : (s.setRx h x).fld i E = s.fld i E := rfl
@[simp] theorem State.setRx_core (h : Hdr) (x : Option Rx) (site : Nat) : (s.setRx h x).core site = s.core site := rfl
@[simp] theorem State.addPacket_reg (h : Hdr) (v : W256) (l : PktLoc) (i d : Nat) : (s.addPacket h v l).reg i d = s.reg i d := rfl
@[simp] theorem State.addPacket_fld (h : Hdr) (d : W256) (l : PktLoc) (i : Nat) (E : Fld) : (s.addPacket h d l).fld i E = s.fld i E := rfl
@[simp] theorem State.addPacket_core (h : Hdr) (d : W256) (l : PktLoc) (site : Nat) : (s.addPacket h d l).core site = s.core site := rfl
@[simp] theorem State.setLink_reg (r p : Nat) (l : Link) (i d : Nat) : (s.setLink r p l).reg i d = s.reg i d := rfl
@[simp] theorem State.setLink_fld (r p : Nat) (l : Link) (i : Nat) (E : Fld) : (s.setLink r p l).fld i E = s.fld i E := rfl
@[simp] theorem State.setLink_core (r p : Nat) (l : Link) (site : Nat) : (s.setLink r p l).core site = s.core site := rfl
@[simp] theorem State.addTx_reg (t : Tx) (i d : Nat) : (s.addTx t).reg i d = s.reg i d := rfl
@[simp] theorem State.addTx_fld (t : Tx) (i : Nat) (E : Fld) : (s.addTx t).fld i E = s.fld i E := rfl
@[simp] theorem State.addTx_core (t : Tx) (site : Nat) : (s.addTx t).core site = s.core site := rfl
@[simp] theorem State.setLines_reg (n : Nat) (l : List CLine) (i d : Nat) : (s.setLines n l).reg i d = s.reg i d := rfl
@[simp] theorem State.setLines_fld (d : Nat) (l : List CLine) (i : Nat) (E : Fld) : (s.setLines d l).fld i E = s.fld i E := rfl
@[simp] theorem State.setLines_core (d : Nat) (l : List CLine) (site : Nat) : (s.setLines d l).core site = s.core site := rfl
@[simp] theorem State.setFacCh_reg (c : Nat) (x : FacChan) (i d : Nat) : (s.setFacCh c x).reg i d = s.reg i d := rfl
@[simp] theorem State.setFacCh_fld (c : Nat) (x : FacChan) (i : Nat) (E : Fld) : (s.setFacCh c x).fld i E = s.fld i E := rfl
@[simp] theorem State.setFacCh_core (c : Nat) (x : FacChan) (site : Nat) : (s.setFacCh c x).core site = s.core site := rfl
@[simp] theorem State.setCtl_reg (m : Nat) (c : Ctl) (i d : Nat) : (s.setCtl m c).reg i d = s.reg i d := rfl
@[simp] theorem State.setCtl_fld (m : Nat) (c : Ctl) (i : Nat) (E : Fld) : (s.setCtl m c).fld i E = s.fld i E := rfl
@[simp] theorem State.setCtl_core (m : Nat) (c : Ctl) (site : Nat) : (s.setCtl m c).core site = s.core site := rfl
@[simp] theorem State.protWrite_reg (a n z : Nat) (i d : Nat) : (s.protWrite a n z).reg i d = s.reg i d := rfl
@[simp] theorem State.protWrite_fld (a n z : Nat) (i : Nat) (E : Fld) : (s.protWrite a n z).fld i E = s.fld i E := rfl
@[simp] theorem State.protWrite_core (a n z : Nat) (site : Nat) : (s.protWrite a n z).core site = s.core site := rfl
@[simp] theorem State.store_reg (a n v z : Nat) (i d : Nat) : (s.store a n v z).reg i d = s.reg i d := rfl
@[simp] theorem State.store_fld (a n v z : Nat) (i : Nat) (E : Fld) : (s.store a n v z).fld i E = s.fld i E := rfl
@[simp] theorem State.store_core (a n v z : Nat) (site : Nat) : (s.store a n v z).core site = s.core site := rfl
@[simp] theorem State.poisonRange_reg (a n z : Nat) (i d : Nat) : (s.poisonRange a n z).reg i d = s.reg i d := rfl
@[simp] theorem State.poisonRange_fld (a n z : Nat) (i : Nat) (E : Fld) : (s.poisonRange a n z).fld i E = s.fld i E := rfl
@[simp] theorem State.poisonRange_core (a n z : Nat) (site : Nat) : (s.poisonRange a n z).core site = s.core site := rfl
@[simp] theorem State.zeroRange_reg (lo hi : Nat) (i d : Nat) : (s.zeroRange lo hi).reg i d = s.reg i d := rfl
@[simp] theorem State.zeroRange_fld (lo hi : Nat) (i : Nat) (E : Fld) : (s.zeroRange lo hi).fld i E = s.fld i E := rfl
@[simp] theorem State.zeroRange_core (lo hi : Nat) (site : Nat) : (s.zeroRange lo hi).core site = s.core site := rfl
@[simp] theorem State.hostWrite_reg (p a n v : Nat) (i d : Nat) : (s.hostWrite p a n v).reg i d = s.reg i d := rfl
@[simp] theorem State.hostWrite_fld (p a n v : Nat) (i : Nat) (E : Fld) : (s.hostWrite p a n v).fld i E = s.fld i E := rfl
@[simp] theorem State.hostWrite_core (p a n v : Nat) (site : Nat) : (s.hostWrite p a n v).core site = s.core site := rfl

theorem State.reg_setReg (k i d : Nat) (w : W64) : (s.setReg k w).reg i d = if i = k then w else s.reg i d :=
  Tab.getD_set s.regs k i w _

@[simp] theorem State.reg_setReg_same (k d : Nat) (w : W64) : (s.setReg k w).reg k d = w := by simp [State.reg_setReg]

theorem State.reg_setFld (k i d : Nat) (F : Fld) (v : Nat) : (s.setFld k F v).reg i d
    = if i = k + F.off then setBits (s.reg (k + F.off) F.rst) F.hi F.lo v else s.reg i d := State.reg_setReg s _ _ _ _

theorem State.core_setCore (g h : Nat) (c : Core) : (s.setCore g c).core h = if h = g then c else s.core h :=
  Tab.getD_set s.cores g h c _

@[simp] theorem State.core_setCore_same (g : Nat) (c : Core) : (s.setCore g c).core g = c := by simp [State.core_setCore]

theorem State.core_updCore (g h : Nat) (f : Core → Core) : (s.updCore g f).core h = if h = g then f (s.core g) else s.core h :=
  State.core_setCore s g h _

@[simp] theorem State.core_updCore_same (g : Nat) (f : Core → Core) : (s.updCore g f).core g = f (s.core g) := by
  simp [State.core_updCore]

theorem State.port_setPort (p q : Nat) (x : Port) : (s.setPort p x).port q = if q = p then x else s.port q :=
  Tab.getD_set s.ports p q x _

theorem State.func_setFunc (p f q g : Nat) (x : Func) :
    (s.setFunc p f x).func q g = if fkey q g = fkey p f then x else s.func q g := Tab.getD_set s.funcs (fkey p f) (fkey q g) x _

@[simp] theorem State.func_setFunc_same (p f : Nat) (x : Func) : (s.setFunc p f x).func p f = x := by simp [State.func_setFunc]

theorem State.prt_setPrt (p q : Nat) (x : Partition) : (s.setPrt p x).prt q = if q = p then x else s.prt q :=
  Tab.getD_set s.parts p q x _

theorem State.prt_updPrt (p q : Nat) (f : Partition → Partition) : (s.updPrt p f).prt q = if q = p then f (s.prt p) else s.prt q :=
  State.prt_setPrt s p q _

theorem State.chan_setChan (c d : Nat) (x : Channel) : (s.setChan c x).chan d = if d = c then x else s.chan d :=
  Tab.getD_set s.power.ch c d x _

theorem State.pcl_setPcl (n m : Nat) (x : Pcl) : (s.setPcl n x).pcl m = if m = n then x else s.pcl m :=
  Tab.getD_set s.power.pcl n m x _

theorem State.facCh_setFacCh (c d : Nat) (x : FacChan) : (s.setFacCh c x).facCh d = if d = c then x else s.facCh d :=
  Tab.getD_set s.fac.ch c d x _

/-! Bits. -/

theorem bits_lt (w : W64) (hi lo : Nat) : bits w hi lo < 2 ^ (hi + 1 - lo) := Nat.mod_lt _ (Nat.two_pow_pos _)

/-- A word is what lies above a field, the field, and what lies below it. -/
theorem bits_split (w : W64) (hi lo : Nat) (h : lo ≤ hi) :
    w.toNat = w.toNat / 2 ^ (hi + 1) * 2 ^ (hi + 1) + bits w hi lo * 2 ^ lo + w.toNat % 2 ^ lo := by
  have e : 2 ^ (hi + 1) = 2 ^ lo * 2 ^ (hi + 1 - lo) := by rw [← pow_add]; congr 1; omega
  unfold bits
  rw [e, ← Nat.div_div_eq_div_mul]
  have h1 := Nat.div_add_mod w.toNat (2 ^ lo)
  have h2 := Nat.div_add_mod (w.toNat / 2 ^ lo) (2 ^ (hi + 1 - lo))
  generalize w.toNat / 2 ^ lo = a at *
  generalize a / 2 ^ (hi + 1 - lo) = q at *
  generalize a % 2 ^ (hi + 1 - lo) = r at *
  generalize w.toNat % 2 ^ lo = z at *
  rw [← h1, ← h2]
  ring

theorem setBits_toNat (w : W64) (hi lo v : Nat) (h : lo ≤ hi) (h6 : hi < 64) : (setBits w hi lo v).toNat
    = w.toNat / 2 ^ (hi + 1) * 2 ^ (hi + 1) + v % 2 ^ (hi + 1 - lo) * 2 ^ lo + w.toNat % 2 ^ lo := by
  have hs := bits_split w hi lo h
  have e : 2 ^ (hi + 1) = 2 ^ (hi + 1 - lo) * 2 ^ lo := by rw [← pow_add]; congr 1; omega
  have hv : v % 2 ^ (hi + 1 - lo) + 1 ≤ 2 ^ (hi + 1 - lo) := Nat.mod_lt _ (Nat.two_pow_pos _)
  have hz : w.toNat % 2 ^ lo < 2 ^ lo := Nat.mod_lt _ (Nat.two_pow_pos _)
  have hm := Nat.mul_le_mul_right (2 ^ lo) hv
  have hq : w.toNat / 2 ^ (hi + 1) + 1 ≤ 2 ^ (63 - hi) := by
    apply Nat.div_lt_of_lt_mul
    rw [← pow_add, show hi + 1 + (63 - hi) = 64 by omega]
    exact w.isLt
  have hn := Nat.mul_le_mul_right (2 ^ (hi + 1)) hq
  rw [← pow_add, show 63 - hi + (hi + 1) = 64 by omega] at hn
  rw [setBits, BitVec.toNat_ofNat, Nat.mod_eq_of_lt]
  · omega
  · rw [add_mul, one_mul] at hm hn
    omega

/-- A field replaced shows the low bits of its new value. -/
theorem bits_setBits (w : W64) (hi lo v : Nat) (h : lo ≤ hi) (h6 : hi < 64) : bits (setBits w hi lo v) hi lo = v % 2 ^ (hi + 1 - lo) := by
  have e : 2 ^ (hi + 1) = 2 ^ (hi + 1 - lo) * 2 ^ lo := by rw [← pow_add]; congr 1; omega
  rw [bits, setBits_toNat w hi lo v h h6, e, ← mul_assoc, ← add_mul]
  rw [add_comm _ (w.toNat % 2 ^ lo), Nat.add_mul_div_right _ _ (Nat.two_pow_pos _), Nat.mod_div_self, zero_add]
  rw [add_comm, Nat.add_mul_mod_self_right, Nat.mod_mod]

/-- A field above or below the one replaced shows what it showed. -/
theorem bits_setBits_other (w : W64) (hi lo v i j : Nat) (h : lo ≤ hi) (h6 : hi < 64) (hij : j ≤ i) (hd : i < lo ∨ hi < j) :
    bits (setBits w hi lo v) i j = bits w i j := by
  have hs := setBits_toNat w hi lo v h h6
  rcases hd with hd | hd
  · have hm : (setBits w hi lo v).toNat % 2 ^ lo = w.toNat % 2 ^ lo := by
      have e : 2 ^ (hi + 1) = 2 ^ (hi + 1 - lo) * 2 ^ lo := by rw [← pow_add]; congr 1; omega
      rw [hs, e, ← mul_assoc, ← add_mul, add_comm, Nat.add_mul_mod_self_right, Nat.mod_mod]
    have low : ∀ x : W64, bits x i j = x.toNat % 2 ^ lo / 2 ^ j % 2 ^ (i + 1 - j) := by
      intro x
      have e : 2 ^ lo = 2 ^ j * (2 ^ (i + 1 - j) * 2 ^ (lo - i - 1)) := by
        rw [← pow_add, ← pow_add]; congr 1; omega
      rw [bits, e, Nat.mod_mul_right_div_self, Nat.mod_mul_right_mod]
    rw [low, low, hm]
  · have hq : (setBits w hi lo v).toNat / 2 ^ (hi + 1) = w.toNat / 2 ^ (hi + 1) := by
      have hv : v % 2 ^ (hi + 1 - lo) + 1 ≤ 2 ^ (hi + 1 - lo) := Nat.mod_lt _ (Nat.two_pow_pos _)
      have hm := Nat.mul_le_mul_right (2 ^ lo) hv
      have e : 2 ^ (hi + 1) = 2 ^ (hi + 1 - lo) * 2 ^ lo := by rw [← pow_add]; congr 1; omega
      have hz : w.toNat % 2 ^ lo < 2 ^ lo := Nat.mod_lt _ (Nat.two_pow_pos _)
      rw [← e, add_mul, one_mul] at hm
      rw [hs, add_assoc, add_comm, Nat.add_mul_div_right _ _ (Nat.two_pow_pos _), Nat.div_eq_of_lt (by omega), zero_add]
    have e : 2 ^ j = 2 ^ (hi + 1) * 2 ^ (j - hi - 1) := by rw [← pow_add]; congr 1; omega
    rw [bits, bits, e, ← Nat.div_div_eq_div_mul, ← Nat.div_div_eq_div_mul, hq]

theorem State.fld_setFld (k : Nat) (F : Fld) (v : Nat) (h : F.lo ≤ F.hi) (h6 : F.hi < 64) :
    (s.setFld k F v).fld k F = v % 2 ^ (F.hi + 1 - F.lo) := by
  rw [State.fld, State.reg_setFld, if_pos rfl, bits_setBits _ _ _ _ h h6]

/-- A field of another register. -/
theorem State.fld_setFld_reg (k i : Nat) (F E : Fld) (v : Nat) (h : i + E.off ≠ k + F.off) :
    (s.setFld k F v).fld i E = s.fld i E := by
  rw [State.fld, State.reg_setFld, if_neg h, State.fld]

/-- Another field of the same register. -/
theorem State.fld_setFld_field (k : Nat) (F E : Fld) (v : Nat) (ho : E.off = F.off) (hr : E.rst = F.rst) (h : F.lo ≤ F.hi)
    (h6 : F.hi < 64) (he : E.lo ≤ E.hi) (hd : E.hi < F.lo ∨ F.hi < E.lo) : (s.setFld k F v).fld k E = s.fld k E := by
  rw [State.fld, ho, State.reg_setFld, if_pos rfl, bits_setBits_other _ _ _ _ _ _ h h6 he hd, State.fld, ho, hr]

end Sys2Proof.Machine
end

