-- ==== Sys2Proof/Tests/Slice0.lean ====
section
/-! SUPPORT. Tests of the model: the checks of WellFormed on ill-formed terms, single steps on small states with what the
spec's rules give, and, for every statement with hypotheses, a theorem that shows a state and operands that meet them. -/

set_option Elab.async false

namespace Sys2Proof.Tests
open Sys2Proof Sys2Proof.Machine

/-- The outcome is a next state of which p holds. -/
def leads (o : Out) (p : State → Bool) : Bool := match o with
  | .next t => p t
  | _ => false

/-- The panel after reset with one core as given. -/
def withCore (g : Nat) (c : Core) : State := { State.reset with cores := [(g, c)] }

/-- A core that runs at PC 0 with c1 = 8 and c2 = 2^64 − 3. -/
def runner : Core := { Core.reset with seq := .run, c := [(1, 8#64), (2, 0xFFFFFFFFFFFFFFFD#64)] }

/-- The panel with that core at site 0. -/
def s0 : State := withCore 0 runner

/-- The panel with a Llyndar controller running. -/
def fw : State := { State.reset with boot := { Boot.reset with c0 := { Ctl.reset with running := true, powered := true, stage := 7 } } }

/-! ## Terms that WellFormed refuses -/

theorem test_wellformed_bounds : siteOk 6144 = false ∧ dieOk 384 = false ∧ blockOk 32 = false ∧ baseOk 96 = false
    ∧ funcOk 4 0 = false ∧ funcOk 0 64 = false ∧ ringOk 8 = false ∧ linkOk 384 0 = false ∧ linkOk 0 4 = false
    ∧ waveOk 32 0 0 = false ∧ waveOk 0 32 0 = false ∧ waveOk 0 0 10 = false ∧ pclOk 2 0 = false ∧ pclOk 0 8 = false
    ∧ ctlOk 2 = false ∧ sliceOk 4096 = false ∧ partOk 64 = false ∧ chkOk 388 = false ∧ facOk 2 = false
    ∧ refDieOk 392 = false ∧ refDieOk 496 = false ∧ refDieOk 532 = false ∧ regionOk 40 = false := by decide

theorem test_wellformed_units : (SensorUnit.compute 384).ok = false ∧ (SensorUnit.base 96).ok = false
    ∧ (SensorUnit.photonic 32).ok = false ∧ (SensorUnit.stack 64).ok = false ∧ (SensorUnit.dome 8).ok = false
    ∧ (RetestUnit.site 6144).ok = false ∧ (RetestUnit.die 384).ok = false ∧ (RegAddr.core 6144 0).ok = false
    ∧ (RegAddr.core 0 0x1000).ok = false ∧ (RegAddr.spine 384 0).ok = false ∧ (RegAddr.base 96 0).ok = false
    ∧ (RegAddr.slicectl 64 0).ok = false ∧ (RegAddr.photonic 32 0).ok = false ∧ (RegAddr.dome 8 0).ok = false
    ∧ (RegAddr.cache 384 0).ok = false ∧ (RegAddr.bar 0 0 0x4000).ok = false := by decide

theorem test_absent_site_faults : exec (.nop 6144) s0 = .fault .absentUnit := rfl
theorem test_absent_register_faults : exec (.regWrite (.spine 384 0) 0#64) State.reset = .fault .absentUnit := rfl
theorem test_absent_stack_faults : exec (.hbmRefresh 64) { State.reset with part := { code := 3, stepping := 2, grade := 4928 } }
    = .fault .absentUnit := rfl
theorem test_no_word_spells : decodeTableWord 8 0 = none := rfl
theorem test_step_takes_the_front : step { s0 with pending := [.nop 0, .halt 0] } = exec (.nop 0) { s0 with pending := [.halt 0] } :=
  rfl

/-! ## The sequencer -/

theorem test_addi : leads (exec (.addi 0 3#5 1#5 0xFFFFFFFF#32) s0)
    (fun t => (t.core 0).reg 3 == 7#64 && (t.core 0).pc == 1 && t.reg 0x4000000000000430 0 == 1#64) = true := by decide +kernel
theorem test_add_wraps : leads (exec (.add 0 1#5 1#5 2#5) s0) (fun t => (t.core 0).reg 1 == 5#64) = true := by decide +kernel
theorem test_c0_stays_zero : leads (exec (.li 0 0#5 5#32) s0) (fun t => (t.core 0).reg 0 == 0#64) = true := by decide +kernel
theorem test_min_is_signed : leads (exec (.min 0 3#5 1#5 2#5) s0) (fun t => (t.core 0).reg 3 == 0xFFFFFFFFFFFFFFFD#64) = true := by
  decide +kernel
theorem test_minu_is_not : leads (exec (.minu 0 3#5 1#5 2#5) s0) (fun t => (t.core 0).reg 3 == 8#64) = true := by decide +kernel
theorem test_mulhu : leads (exec (.mulhu 0 3#5 1#5 2#5) s0) (fun t => (t.core 0).reg 3 == 7#64) = true := by decide +kernel
theorem test_sra_keeps_the_sign : leads (exec (.srai 0 3#5 2#5 1#32) s0)
    (fun t => (t.core 0).reg 3 == 0xFFFFFFFFFFFFFFFE#64) = true := by decide +kernel
theorem test_shift_above_63_is_illegal : leads (exec (.shli 0 3#5 1#5 64#32) s0)
    (fun t => (t.core 0).seq == .faulted && bits (t.reg 0x4000000000000468 0) 63 56 == 1) = true := by decide +kernel
theorem test_branch_backward : leads (exec (.bne 0 1#5 2#5 0xFFFFFFFF#32) (withCore 0 { runner with pc := 9 }))
    (fun t => (t.core 0).pc == 8) = true := by decide +kernel
theorem test_branch_not_taken : leads (exec (.beq 0 1#5 2#5 5#32) s0) (fun t => (t.core 0).pc == 1) = true := by decide +kernel
theorem test_branch_below_zero : leads (exec (.bne 0 1#5 2#5 0xFFFFFFFF#32) s0)
    (fun t => (t.core 0).seq == .faulted && bits (t.reg 0x4000000000000468 0) 63 56 == 2) = true := by decide +kernel
theorem test_jalr_same_register : leads (exec (.jalr 0 1#5 1#5 1#32) s0)
    (fun t => (t.core 0).pc == 9 && (t.core 0).reg 1 == 1#64) = true := by decide +kernel
theorem test_store_then_byte : leads (exec (.st 0 2#5 1#5 1#9 1#32) s0)
    (fun t => memGet t.mem 9 == 0xFD#8 && memGet t.mem 10 == 0xFF#8 && memGet t.mem 11 == 0#8) = true := by decide +kernel
theorem test_load_sign_extends : leads (exec (.ld 0 3#5 1#5 4#9 0#32) { s0 with mem := [(8, 0x80#8)] })
    (fun t => (t.core 0).reg 3 == 0xFFFFFFFFFFFFFF80#64) = true := by decide +kernel
theorem test_load_beyond_the_scratchpad : leads (exec (.ld 0 3#5 0#5 3#9 6291449#32) s0)
    (fun t => (t.core 0).seq == .faulted && t.reg 0x4000000000000478 0 == 6291449#64) = true := by decide +kernel
theorem test_wait_stalls : leads (exec (.wait 0 0#5 0#9 1#32) s0)
    (fun t => (t.core 0).seq == .wait && (t.core 0).stall == some (.counter 0 1)) = true := by decide +kernel
theorem test_halt_without_work : leads (exec (.halt 0) s0) (fun t => (t.core 0).seq == .halted) = true := by decide +kernel
theorem test_start_loads_the_launch : leads (exec (.seqStart 0) (withCore 0 { Core.reset with launch := ⟨5#64, 6#64, 7#64, 9#64⟩ }))
    (fun t => (t.core 0).seq == .run && (t.core 0).reg 1 == 5#64 && (t.core 0).reg 4 == 9#64 && (t.core 0).reg 5 == 0#64) = true := by
  decide +kernel
theorem test_frozen_core_resumes_its_stall : leads (exec (.seqResume 0) (withCore 0 { runner with seq := .frozen, frozenFrom := .wait }))
    (fun t => (t.core 0).seq == .wait) = true := by decide +kernel

/-! Hypotheses met: the sequencer. -/

theorem witness_CanIssue : CanIssue s0 0 := by unfold CanIssue; and_intros <;> decide +kernel

theorem witness_ImmediateResults : CanIssue s0 0 ∧ (63#32).toNat < 64 ∧ 64 ≤ (64#32).toNat := ⟨witness_CanIssue, by decide, by decide⟩

/-- The PC and target at either end of the range, both values of a condition, and a fetch from a bank that is not SEQ's. -/
theorem witness_BranchesAndJumps : CanIssue s0 0 ∧ (0#64 + (0x000BFFFF#32).signExtend 64).toNat < 786432
    ∧ 786432 ≤ (0#64 + (0x000C0000#32).signExtend 64).toNat ∧ ((fetched s0 0).core 0).reg 1 ≠ ((fetched s0 0).core 0).reg 2
    ∧ (let w := s0.setReg (corePage 0 + 0x700) 1#64; (w.core 0).seq = .run ∧ (w.core 0).pc < 786432
        ∧ w.owns 0 0 (8 * (w.core 0).pc) 8 = false) :=
  ⟨witness_CanIssue, by decide, by decide, by decide +kernel, by decide +kernel⟩

theorem witness_LoadResult : CanIssue s0 0 ∧ (7#9).toNat < 8 ∧ 6291448 + 8 ≤ 6291456
    ∧ (fetched s0 0).owns 0 0 6291448 8 = true ∧ (fetched s0 0).spPoison 0 6291448 8 = none ∧ 6291456 < 6291449 + 8 :=
  ⟨witness_CanIssue, by decide, by decide, by decide +kernel, by decide +kernel, by decide⟩

theorem witness_StoreResult : CanIssue s0 0 ∧ (3#9).toNat < 4 ∧ Memory.wf (fetched s0 0).mem = true
    ∧ (((fetched s0 0).core 0).reg 1 + (6291440#32).signExtend 64).toNat + 8 ≤ 6291456
    ∧ (fetched s0 0).owns 0 0 6291448 8 = true :=
  ⟨witness_CanIssue, by decide, by decide +kernel, by decide +kernel, by decide +kernel⟩

theorem witness_CounterInstructions : CanIssue s0 0 ∧ (15#9).toNat < 16 ∧ 16 ≤ (16#9).toNat
    ∧ 0 ≤ (((fetched s0 0).core 0).kVal 15).toNat ∧ (((fetched s0 0).core 0).kVal 15).toNat < 65535
    ∧ 65535 < (((fetched s0 0).core 0).reg 2).toNat :=
  ⟨witness_CanIssue, by decide, by decide, by decide, by decide +kernel, by decide +kernel⟩

/-- A core with an instruction in its vector queue, and one stalled at FENCE 0x1F. -/
def vecBusy : State := withCore 0 { runner with vec := { Vec.reset with q := [⟨0#64, 0, 0, 0, 0⟩] } }
def fenceWait : State := withCore 0 { runner with seq := .wait, stall := some (.fence 31) }

/-- At the fence and stalled at it, with nothing left and with an instruction left; the largest legal X and the first illegal. -/
theorem witness_FenceWaitsForSelectedWork : CanIssue s0 0 ∧ FenceDone (fetched s0 0) 0 31#9
    ∧ CanIssue vecBusy 0 ∧ ¬FenceDone (fetched vecBusy 0) 0 2#9 ∧ (31#9).toNat < 32 ∧ 32 ≤ (32#9).toNat ∧ siteOk 0 = true
    ∧ (fenceWait.core 0).seq = .wait ∧ (fenceWait.core 0).stall = some (.fence (31#9).toNat) ∧ FenceDone fenceWait 0 31#9 := by
  unfold CanIssue FenceDone; dsimp only; and_intros <;> decide +kernel

theorem witness_CoreRegisterAccess : CanIssue s0 0 ∧ (0xFF8#32).toNat < 0x1000 ∧ (0xFF8#32).toNat % 8 = 0
    ∧ findReg coreRegs 0xFF8 = none ∧ 0x1000 ≤ (0x1000#32).toNat ∧ (1#32).toNat % 8 ≠ 0 :=
  ⟨witness_CanIssue, by decide, by decide, by decide +kernel, by decide, by decide⟩

/-- The window set of die 0 valid, with logical core 0 at die 0, slot 0. -/
def winState : State :=
  let p := spinePage 0
  ((((s0.setFld p (WIN_HDR_VALID 0) 1).setFld p (WIN_HDR_NCORES 0) 1).setFld p (WIN_CORE_VALID 0 0) 1).setFld p (WIN_CORE_DIE 0 0)
    0).setFld p (WIN_CORE_SLOT 0 0) 0

/-- A window that names more cores than its core map lists, and a core with a PUT running. -/
def winShort : State := winState.setFld (spinePage 0) (WIN_HDR_NCORES 0) 8191
def winBusy : State := winState.setCore 0 { runner with dma := { Dma.reset with q := [⟨⟨0x1000000000000000#64, 0#64, 0#64, 0#64⟩, 0, 0#64, 0⟩] } }

theorem witness_SignalSends : CanIssue winState 0 ∧ (15#9).toNat < 16 ∧ (1#32).toNat < 2
    ∧ (fetched winState 0).nCores 0 ≤ (((fetched winState 0).core 0).reg 1).toNat
    ∧ 0 < (fetched winState 0).nCores 0 ∧ (fetched winState 0).writesDue 0 = false
    ∧ ((fetched winState 0).dest 0 (lcoreAddr 0)).isSome = true ∧ (fetched winState 0).freeTag 0 0 = some 0
    ∧ (fetched winState 0).injCount 0 + 1 ≤ 64
    ∧ CanIssue winBusy 0 ∧ 0 < (fetched winBusy 0).nCores 0 ∧ (fetched winBusy 0).writesDue 0 = true
    ∧ CanIssue winShort 0 ∧ (((fetched winShort 0).core 0).reg 1).toNat < (fetched winShort 0).nCores 0
    ∧ ((fetched winShort 0).dest 0 (lcoreAddr 8)).isNone = true := by
  unfold CanIssue; and_intros <;> decide +kernel

theorem test_signal_sends_one_packet : leads (exec (.signal 0 0#5 3#9 0#32) winState)
    (fun t => t.fab.packets.map (fun p => (p.h.type, p.h.drouter, p.h.dep, p.h.arg)) == [(8, 0, 0, 3#36)] && t.unacked 0 == 1) = true := by
  decide +kernel

/-- Each range of reserved opcodes at its ends, and an EPOCH with one unused bit set. -/
theorem witness_FetchAndReservedWords : CanIssue s0 0 ∧ Memory.wf s0.mem = true ∧ s0.weakAt (spBase 0 + 8 * 0) 8 8 = []
    ∧ bits 0x0400000000000000#64 63 56 = 0x04 ∧ bits 0xBF00000000000000#64 63 56 = 0xBF
    ∧ bits 0x0200000000000001#64 63 56 ≤ 2 ∧ bits 0x0200000000000001#64 55 0 ≠ 0 :=
  ⟨witness_CanIssue, by decide, by decide, by decide, by decide, by decide, by decide⟩

theorem test_reserved_word_faults : leads (exec (.reservedOpcode 0 0xBF00000000000001#64) s0)
    (fun t => (t.core 0).seq == .faulted && t.reg 0x4000000000000470 0 == 0xBF00000000000001#64) = true := by decide +kernel

/-- A queue one deeper than MAC_CFG.QDEPTH allows, one exactly as deep, and a vector queue likewise. -/
def deepMac (n : Nat) : State :=
  withCore 0 { runner with mac := { Mac.reset with q := List.replicate n ⟨⟨0#64, 0#64, 0#64, 0#64⟩, 0, 0#64, 0⟩ }
                           vec := { Vec.reset with q := List.replicate n ⟨0#64, 0, 0, 0, 0⟩ } }

theorem witness_EngineIssue : CanIssue (deepMac 0) 0 ∧ 32 * 196607 + 32 ≤ 6291456
    ∧ (fetched (deepMac 0) 0).owns 0 0 (32 * 196607) 32 = true ∧ (fetched (deepMac 0) 0).spPoison 0 (32 * 196607) 32 = none
    ∧ ((fetched (deepMac 0) 0).core 0).mac.q.length ≤ (fetched (deepMac 0) 0).fld (corePage 0) MAC_CFG_QDEPTH
    ∧ ((fetched (deepMac 0) 0).core 0).edge.q.length ≤ (fetched (deepMac 0) 0).fld (corePage 0) EDGE_CFG_QDEPTH
    ∧ ((fetched (deepMac 0) 0).core 0).dmaQ ≤ (fetched (deepMac 0) 0).fld (corePage 0) SEQ_CFG_DMA_QDEPTH
    ∧ CanIssue (deepMac 64) 0
    ∧ (fetched (deepMac 64) 0).fld (corePage 0) MAC_CFG_QDEPTH < ((fetched (deepMac 64) 0).core 0).mac.q.length
    ∧ 0xC0 ≤ bits 0xC000000000000000#64 63 56
    ∧ ((fetched (deepMac 0) 0).core 0).vec.q.length ≤ (fetched (deepMac 0) 0).fld (corePage 0) VEC_CFG_QDEPTH
    ∧ (fetched (deepMac 64) 0).fld (corePage 0) VEC_CFG_QDEPTH < ((fetched (deepMac 64) 0).core 0).vec.q.length := by
  unfold CanIssue; and_intros <;> decide +kernel

theorem witness_SequencerStates : siteOk 0 = true ∧ (State.reset.core 0).seq = .idle ∧ (s0.core 0).seq = .run
    ∧ ((withCore 0 { runner with seq := .frozen }).core 0).seq = .frozen ∧ siteOk 6143 = true := by decide +kernel

/-- A core stalled for a reason. -/
def stalled (r : Stall) : State := withCore 0 { runner with seq := .wait, stall := some r, k := [(3, 7#16)] }

theorem witness_StallsHaltAndEpoch : siteOk 0 = true ∧ CanIssue s0 0 ∧ (fetched s0 0).fenced 0 0x1F = true
    ∧ ((fetched s0 0).core 0).mac.finder = [] ∧ CanIssue vecBusy 0 ∧ (fetched vecBusy 0).fenced 0 0x1F = false
    ∧ (fetched s0 0).liveWords 0 ≤ 24576
    ∧ CanIssue (s0.setFld (corePage 0) (LIVE_LEN 0) 24577) 0
    ∧ 24576 < (fetched (s0.setFld (corePage 0) (LIVE_LEN 0) 24577) 0).liveWords 0
    ∧ ((stalled (.counter 3 7)).core 0).seq = .wait ∧ 7 ≤ (((stalled (.counter 3 7)).core 0).kVal 3).toNat
    ∧ (((stalled (.counter 3 8)).core 0).kVal 3).toNat < 8
    ∧ ((stalled .haltFence).core 0).stall = some .haltFence ∧ (stalled .haltFence).fenced 0 0x1F = true
    ∧ ((stalled .finder).core 0).stall = some .finder ∧ ((stalled .finder).core 0).mac.finder = []
    ∧ ((stalled .epochFence).core 0).stall = some .epochFence ∧ (stalled .epochFence).fenced 0 0x1F = true := by
  unfold CanIssue; and_intros <;> decide +kernel

theorem test_wait_ends_at_its_value : leads (exec (.seqStallEnd 0) (stalled (.counter 3 7)))
    (fun t => (t.core 0).seq == .run && (t.core 0).pc == 1) = true := by decide +kernel
theorem test_wait_goes_on_below : exec (.seqStallEnd 0) (stalled (.counter 3 8)) = .next (stalled (.counter 3 8)) := by rfl

theorem witness_OtherCoresKeepTheirRegisters : (1 : Nat) ≠ 0 ∧ leads (exec (.mul 0 1#5 2#5 3#5) s0) (fun _ => true) = true
    ∧ leads (exec (.jal 0 0#5 0xFFFFFFFF#32) s0) (fun t => (t.core 0).seq == .faulted) = true := by decide +kernel

/-! ## The MAC array -/

/-- The panel with every bank of site 0 owned by code o. -/
def ownedBy (o : Nat) (s : State) : State := iter 24 (fun b s => s.setReg (corePage 0 + 0x700 + 8 * b) (BitVec.ofNat 64 o)) s

/-- An 8-bit descriptor that loads weights, clears and has one row; a FP4 one that quantises FP16 on entry and may be promoted;
one with a reserved word set; one that reads out. -/
def d8 : Quad := ⟨0x0000280000000000#64, 1#64, 0#64, 0#64⟩
def d4 : Quad := ⟨0x3930288000000000#64, 1#64, 0#64, 0#64⟩
def dBad : Quad := ⟨0x0000280000000000#64, 1#64, 0#64, 1#64⟩
def dOut : Quad := ⟨0x000B2C0000000000#64, 0x0000000004000001#64, 0x0080000000000000#64, 0#64⟩

def entry (d : Quad) : QEntry := ⟨d, 0, 0#64, 0⟩

/-- A buffer whose weights and scales are all of code 0. -/
def noWeights : WBuf := ⟨0, 0, 0, 0⟩

/-- A run of a descriptor in a phase. -/
def macRun (d : Quad) (p : MacPhase) : MacRun :=
  ⟨0, entry d, mdClass d, 0, p, 0, false, false, [], 0, 0, [], [], [], [], [], false, p != .ready⟩

/-- Site 0 running with a MAC array as given, its banks the array's. -/
def macSite (m : Mac) : State := ownedBy 1 (withCore 0 { runner with mac := m })
def oneRun (d : Quad) (p : MacPhase) : State :=
  macSite { Mac.reset with runs := [macRun d p], wbuf0 := some noWeights }

/-- Work that goes through. -/
def through {α : Type} (m : Eng α) (s : State) : Bool := match m.run s with
  | .ok _ => true
  | .error _ => false

theorem witness_MacDescriptorsStart : EnginesRun (macSite { Mac.reset with q := [entry d8] }) 0
    ∧ ((macSite { Mac.reset with q := [entry d8] }).mac 0).mayLeave = true
    ∧ MacDescOk (macSite { Mac.reset with q := [entry d8] }) 0 d8
    ∧ MacDescOk (macSite { Mac.reset with q := [entry d4] }) 0 d4 ∧ mdReservedZero dBad = false
    ∧ ((macSite { Mac.reset with q := [entry d4] }).setFld (corePage 0) (TSET_W4_ACTIONS 0) 2).pwAction 0 (mdTset d4) 0 = 2
    ∧ mdPromote d4 = true ∧ mdEntry d4 = true ∧ mdClass d4 = 2 := by
  unfold EnginesRun MacDescOk; and_intros <;> decide +kernel

theorem witness_PrescanPromotes : EnginesRun (oneRun d4 .scan) 0
    ∧ ((oneRun d4 .scan).mac 0).runs.find? (fun x => x.phase == .scan) = some (macRun d4 .scan)
    ∧ through (macScan ((macRun d4 .scan).work 0) (macRun d4 .scan)) (oneRun d4 .scan) = true := by
  unfold EnginesRun; and_intros <;> decide +kernel

theorem witness_MacStreamStarts : EnginesRun (oneRun d8 .ready) 0
    ∧ ((oneRun d8 .ready).mac 0).runs.find? (fun x => x.phase == .ready) = some (macRun d8 .ready)
    ∧ ((oneRun d8 .ready).mac 0).mayStream (macRun d8 .ready) = true ∧ mdWload d8 = true ∧ (macRun d8 .ready).steps = 0
    ∧ 0 < wSize (mdWfmt d8) (mdK d8) (mdN d8) ∧ mdWsrc d8 + wSize (mdWfmt d8) (mdK d8) (mdN d8) ≤ 6291456
    ∧ (oneRun d8 .ready).owns 0 1 (mdWsrc d8) (wSize (mdWfmt d8) (mdK d8) (mdN d8)) = true
    ∧ (oneRun d8 .ready).spPoison 0 (mdWsrc d8) (wSize (mdWfmt d8) (mdK d8) (mdN d8)) = none := by
  unfold EnginesRun; and_intros <;> decide +kernel

/-- The run and the buffer whose row is due, streaming or at its replay. -/
def replaying : State :=
  macSite { Mac.reset with runs := [{ macRun d8 .stream with replay := true }], wbuf0 := some noWeights }

/-- An upset of 2⁻³² and one that vanishes modulo 7. -/
def upset (x : Int) : MacUpset := .sum 31 0 x

/-- Whether the comparison at that upset fails. -/
def mismatches (x : Int) : Bool :=
  match (actBlock ((macRun d8 .stream).work 0) d8 (macRun d8 .stream).actFmt 0 0).run (oneRun d8 .stream) with
  | .ok (a, _) => columnResidue noWeights a.qs 0 31 != residue7 ((blockSum noWeights a.qs 0 31).add ⟨x, -32⟩)
  | .error _ => false

theorem witness_MacRowsAndReplays : (oneRun d8 .stream).macStreaming 0 false = some (macRun d8 .stream, noWeights)
    ∧ macSuspect ((oneRun d8 .stream).mac 0) (macRun d8 .stream) .clean = none
    ∧ macSuspect ((oneRun d8 .stream).mac 0) (macRun d8 .stream) (upset 1) = some (31, 0, 1)
    ∧ mismatches 1 = true ∧ mismatches 7 = false
    ∧ replaying.macStreaming 0 true = some ({ macRun d8 .stream with replay := true }, noWeights) := by
  and_intros <;> decide +kernel

theorem witness_RowLands : RowLands (oneRun d8 .stream) 0 (macRun d8 .stream) := by
  refine ⟨by decide, ?_, .inl ⟨rfl, rfl⟩, by decide⟩
  have h : ∀ i ∈ List.range (clsK (macRun d8 .stream).cls / 32),
      BlockReadable (oneRun d8 .stream) 0 d8 (macRun d8 .stream).actFmt 0 i := by unfold BlockReadable Readable; decide +kernel
  intro i hi
  simpa [macRun, entry] using h i (List.mem_range.2 hi)

/-- Activations and weights of ones in E4M3, all scales 1: the row lands 32 in each column. -/
def onesState : State :=
  { macSite { Mac.reset with runs := [macRun d8 .stream], wbuf0 := some (loadTile 0 0 (ofBytes (List.replicate 1024 0x38#8
      ++ List.replicate 32 127#8))) } with mem := (List.range 32).map (fun i => (i, 0x38#8)) ++ [(32, 127#8)] }
theorem test_row_lands_its_sums : leads (exec (.macRowLand 0 .clean) onesState)
    (fun t => (t.mac 0).acc.getD 0 0#32 == 0x42000000#32 && (t.mac 0).acc.getD 31 0#32 == 0x42000000#32
      && (t.mac 0).acc.getD 32 0#32 == 0#32) = true := by decide +kernel
theorem test_upset_replays_the_row : leads (exec (.macRowLand 0 (upset 1)) onesState)
    (fun t => (t.mac 0).acc.isEmpty && (t.mac 0).runs.all (·.replay)) = true := by decide +kernel

/-- A halo element of the run, and a run whose drift is due. -/
def haloState : State :=
  macSite { Mac.reset with runs := [macRun d8 .landed], wbuf0 := some noWeights, halo := [⟨0, 0, 0x3F800000#32, [(1, 0)]⟩] }
def dDrift : Quad := ⟨0x0000280800000000#64, 1#64, 0#64, 0#64⟩
def driftState : State := macSite { Mac.reset with runs := [macRun dDrift .landed], wbuf0 := some noWeights }
def job : FinderJob := ⟨0#32, 0, 0#64, 0, ⟨0, 0#32, 0#32, 0#32, 1, [], 0#32, (0, 0)⟩, 0#32, true, 256⟩
def finderState : State := macSite { Mac.reset with finder := [job] }

theorem witness_HaloDriftAndFinder : EnginesRun haloState 0 ∧ (haloState.mac 0).halo = [⟨0, 0, 0x3F800000#32, [(1, 0)]⟩]
    ∧ (haloState.mac 0).runs.find? (fun x => x.id == 0) = some (macRun d8 .landed) ∧ 1 ≤ mdN d8
    ∧ EnginesRun driftState 0
    ∧ (driftState.mac 0).runs.find? (fun x => (driftState.mac 0).drained x && mdDrift x.q.d && !x.driftDone) = some (macRun dDrift .landed)
    ∧ (driftState.mac 0).wbuf (mdWbuf dDrift) = some noWeights ∧ through (macDriftEval 0 (macRun dDrift .landed) noWeights) driftState = true
    ∧ siteOk 0 = true ∧ (finderState.core 0).enginesRun = true ∧ (finderState.mac 0).finder = [job] ∧ job.matches = true
    ∧ job.outOk = true ∧ (finderState.mac 0).injFind = false ∧ ({ job with a := 1#32 } : FinderJob).matches = false := by
  unfold EnginesRun; and_intros <;> decide +kernel

theorem test_halo_adds_its_product : leads (exec (.haloCorrection 0 .clean) haloState)
    (fun t => (t.mac 0).acc.getD 0 0#32 == 0x3F800000#32 && (t.mac 0).halo.isEmpty) = true := by decide +kernel
theorem test_finder_mismatch_faults : leads (exec (.finderCheck 0 .clean) (macSite { Mac.reset with finder := [{ job with a := 1#32 }] }))
    (fun t => (t.core 0).seq == .faulted && bits (t.reg 0x4000000000000468 0) 63 52 == 0x125) = true := by decide +kernel

/-- A run that reads out, one read out, and one complete with its counter at the end of its range. -/
theorem witness_MacOutputAndCompletion : EnginesRun (oneRun dOut .landed) 0 ∧ Memory.wf (oneRun dOut .landed).mem = true
    ∧ ((oneRun dOut .landed).mac 0).runs = [macRun dOut .landed] ∧ ((oneRun dOut .landed).mac 0).drained (macRun dOut .landed) = true
    ∧ mdReadout dOut = true ∧ mdDrift dOut = false ∧ ((oneRun dOut .landed).mac 0).wbuf (mdWbuf dOut) = some noWeights
    ∧ through (macReadout 0 (macRun dOut .landed) noWeights none) (oneRun dOut .landed) = true
    ∧ EnginesRun (oneRun d8 .landed) 0 ∧ mdReadout d8 = false ∧ ((oneRun d8 .landed).mac 0).drained (macRun d8 .landed) = true
    ∧ ((oneRun d8 .landed).core 0).kVal (mdKc d8) ≠ 0xFFFF#16
    ∧ ((withCore 0 { runner with k := [(0, 0xFFFF#16)] }).core 0).kVal 0 = 0xFFFF#16 := by
  unfold EnginesRun; and_intros <;> decide +kernel

theorem test_completion_counts : leads (exec (.macDescComplete 0) (oneRun d8 .landed))
    (fun t => (t.core 0).kVal 0 == 1#16 && (t.mac 0).runs.isEmpty) = true := by decide +kernel

/-! ## The vector engine -/

/-- A vector word of an opcode, type and immediate, its other fields zero, and site 0 with it at the head of the queue. -/
def vecWord (op ty imm : Nat) : W64 := BitVec.ofNat 64 (op * 2 ^ 56 + ty * 2 ^ 32 + imm)
def vecState (w : W64) (t : Tab TileW) : State :=
  ownedBy 2 (withCore 0 { runner with vec := { Vec.reset with q := [⟨w, 0, 64, 0, 0⟩], t := t, chain := [(0, 0#1152)] } })
def vecSite (w : W64) : State := vecState w []

/-- Opcodes that want an integer type, and those that want a floating one. -/
def intOps : List Nat := [0xC0, 0xC1, 0xC2, 0xC3, 0xC4, 0xC5, 0xC6, 0xC7, 0xC8, 0xC9, 0xCA, 0xCB, 0xCC, 0xCD, 0xCE, 0xCF, 0xD0,
  0xD9, 0xDA, 0xDB, 0xDC, 0xDD, 0xDE, 0xDF, 0xE0, 0xE1, 0xE2, 0xE3, 0xE4, 0xE5, 0xE6, 0xE7, 0xE8, 0xE9, 0xEA, 0xEE]
def fltOps : List Nat := [0xD1, 0xD2, 0xD3, 0xD4, 0xD5, 0xD6, 0xD7, 0xD8, 0xEC, 0xED]

/-- Every vector opcode has a legal word at the head of a running core's queue; VQNT's scale tile differs from TD. -/
theorem witness_VecTurn : (∀ op ∈ intOps, VecTurn (vecSite (vecWord op 5 0)) 0 op 0 ⟨vecWord op 5 0, 0, 64, 0, 0⟩)
    ∧ (∀ op ∈ fltOps, VecTurn (vecSite (vecWord op 0 0)) 0 op 0 ⟨vecWord op 0 0, 0, 64, 0, 0⟩)
    ∧ VecTurn (vecSite (vecWord 0xEB 0 64)) 0 0xEB 0 ⟨vecWord 0xEB 0 64, 0, 64, 0, 0⟩ := by
  have turn : ∀ w op, EnginesRun (vecSite w) 0 → ((vecSite w).vec 0).nextFor op = some (0, ⟨w, 0, 64, 0, 0⟩) → wOp w = op →
      vecLegal w = true → VecTurn (vecSite w) 0 op 0 ⟨w, 0, 64, 0, 0⟩ := by
    refine fun w op h1 h2 h3 h4 => ⟨h1, h2, h3, fun _ => h4, fun j => ?_⟩
    have : vecCounted ((vecSite w).vec 0).q 0 ⟨w, 0, 64, 0, 0⟩ j ≤ 1 := by
      have hl : ((vecSite w).vec 0).q.length = 1 := by rfl
      have : (vecRetired ((vecSite w).vec 0).q 0 ⟨w, 0, 64, 0, 0⟩).length ≤ 1 :=
        (List.takeWhile_sublist _).length_le.trans (by simp [vecDid, hl])
      exact (List.length_filter_le _ _).trans this
    have hk : ((vecSite w).core 0).kVal j = 0#16 := by rfl
    rw [hk]; show 0 + _ ≤ _; omega
  have all : ∀ ty (l : List Nat), (∀ op ∈ l, EnginesRun (vecSite (vecWord op ty 0)) 0
      ∧ ((vecSite (vecWord op ty 0)).vec 0).nextFor op = some (0, ⟨vecWord op ty 0, 0, 64, 0, 0⟩) ∧ wOp (vecWord op ty 0) = op
      ∧ vecLegal (vecWord op ty 0) = true) → ∀ op ∈ l, VecTurn (vecSite (vecWord op ty 0)) 0 op 0 ⟨vecWord op ty 0, 0, 64, 0, 0⟩ :=
    fun ty l h op m => turn _ _ (h op m).1 (h op m).2.1 (h op m).2.2.1 (h op m).2.2.2
  unfold EnginesRun at *
  exact ⟨all 5 _ (by decide +kernel), all 0 _ (by decide +kernel), turn _ _ (by decide +kernel) (by decide +kernel) (by decide)
    (by decide +kernel)⟩

/-- What the loads and stores ask of the scratchpad, at its last bytes and with sixteen repeats into tiles 16–31. -/
def vldWord : W64 := BitVec.ofNat 64 (0xC0 * 2 ^ 56 + 16 * 2 ^ 51 + 5 * 2 ^ 32 + 15 * 2 ^ 18)
theorem witness_VectorLoadsAndStores : vecLegal vldWord = true ∧ vREP vldWord = 15
    ∧ (∀ i, i < 16 → 6275072 + 1024 * i + 1024 ≤ 6291456 ∧ (vecSite vldWord).owns 0 2 (6275072 + 1024 * i) 1024 = true
        ∧ (vecSite vldWord).spPoison 0 (6275072 + 1024 * i) 1024 = none)
    ∧ (∀ k, k < vtR 5 → k * 64 + 1024 / vtR 5 ≤ 6291456 ∧ (vecSite vldWord).owns 0 2 (k * 64) (1024 / vtR 5) = true
        ∧ (vecSite vldWord).spPoison 0 (k * 64) (1024 / vtR 5) = none)
    ∧ 1024 / vtR 5 ≤ 64 ∧ (vecSite vldWord).owns 0 2 0 144 = true ∧ (vecSite vldWord).spPoison 0 0 144 = none
    ∧ Memory.wf (vecSite vldWord).mem = true := by
  and_intros <;> decide +kernel

theorem witness_VectorMasksAndMoves : ((vecSite 0#64).vec 0).chain.find 0 = some 0#1152
    ∧ chainLegal (vecWord 0xED 0 0) (some 0#1152) = true ∧ vtW 5 = 32 := by and_intros <;> decide +kernel

theorem witness_VectorDestinationsAndFaults : vTy (vecWord 0xC8 5 0) < 8 ∧ (∀ x, x % 2 ^ 32 < 2 ^ vtW (vTy (vecWord 0xC8 5 0)))
    ∧ vecLegal (vecWord 0xC8 5 1) = false ∧ 0xEF ≤ wOp (vecWord 0xEF 0 0) ∧ wOp (vecWord 0xEE 0 0) < 0xEF
    ∧ EnginesRun (vecSite (vecWord 0xEF 0 0)) 0 ∧ ((vecSite (vecWord 0xEF 0 0)).vec 0).q = [⟨vecWord 0xEF 0 0, 0, 64, 0, 0⟩] := by
  unfold EnginesRun; refine ⟨by decide, fun x => Nat.mod_lt _ (by decide), ?_⟩; and_intros <;> decide +kernel

/-- The first element of tile 0 after a command. -/
def tile0 (i : Instr) (w : W64) (t : Tab TileW) : Nat := match exec i (vecState w t) with
  | .next u => elemAt 32 ((u.vec 0).tile 0) 0
  | _ => 0

/-- VADD of INT32 holds at the ends of the range (R141); 1.5 + 2.25 and √2 as binary32; VRCP of zero gives the largest value. -/
theorem test_vadd_saturates : tile0 (.vadd 0) (vecWord 0xC8 5 0) [(0, 0x7FFFFFFF#8192)] = 0x7FFFFFFF := by decide +kernel
theorem test_vadd_fp32 : tile0 (.vadd 0) (BitVec.ofNat 64 (0xC8 * 2 ^ 56 + 2 ^ 41)) [(0, 0x3FC00000#8192), (1, 0x40100000#8192)]
    = 0x40700000 := by decide +kernel
theorem test_vsqrt_rounds_once : tile0 (.vsqrt 0) (vecWord 0xD1 0 0) [(0, 0x40000000#8192)] = 0x3FB504F3 := by decide +kernel
theorem test_vrcp_of_zero : tile0 (.vrcp 0) (vecWord 0xD2 0 0) [] = 0x7F7FFFFF := by decide +kernel
theorem test_vsra_keeps_the_sign : tile0 (.vsra 0) (BitVec.ofNat 64 (0xE1 * 2 ^ 56 + 2 ^ 41 + 5 * 2 ^ 32)) [(0, 0x80000000#8192), (1, 40#8192)]
    = 0xFFFFFFFF := by decide +kernel
theorem test_illegal_vector_word : leads (exec (.vmark 0) (vecSite (vecWord 0xEF 0 0)))
    (fun t => (t.core 0).seq == .faulted && bits (t.reg 0x4000000000000468 0) 63 52 == 0x012) = true := by decide +kernel

/-! ## The edge engine -/

/-- A descriptor of an operation: COUNT n, IN0 0, IN1 8, RES 32, OUT0 64, and PARAM p. -/
def edgeDesc (op n p : Nat) : Quad := ⟨BitVec.ofNat 64 (op * 2 ^ 60 + n), 0x0000000000200001#64, 0x0000800000000000#64, BitVec.ofNat 64 p⟩
def edgeDesc1 (op p : Nat) : Quad := ⟨BitVec.ofNat 64 (op * 2 ^ 60 + 2), 1#64, 0x0000800000000000#64, BitVec.ofNat 64 p⟩

/-- Site 0 with descriptor d at the head of the edge queue, the words 1, 2, 2, 3 at the start of its scratchpad. -/
def edgeSite (d : Quad) : State :=
  { ownedBy 3 (withCore 0 { runner with edge := { Edge.reset with q := [entry d] } }) with
    mem := [(0, 1#8), (4, 2#8), (8, 2#8), (12, 3#8)] }

/-- Two-input operations on [1, 2] and [2, 3] with CAP 4, and the operations of one input. -/
def setDesc (op : Nat) : Quad := edgeDesc op 2 (2 * 2 ^ 32 + 4)
def oneDescs : List (Nat × Quad) :=
  [(0, edgeDesc1 0 4), (2, edgeDesc1 2 4), (6, edgeDesc1 6 4), (7, edgeDesc1 7 0), (9, edgeDesc1 9 (2 ^ 32)), (0xA, edgeDesc1 0xA 0)]

theorem witness_EdgeSetsAndSorts :
    (∀ op ∈ [3, 4, 5], EdgeHead (edgeSite (setDesc op)) 0 op (entry (setDesc op)) [] ∧ edFl (setDesc op) = 0 ∧ 2 + 2 ≤ edCap (setDesc op)
      ∧ words4 (edgeSite (setDesc op)) 0 (edIn0 (setDesc op)) 2 = [1, 2] ∧ words4 (edgeSite (setDesc op)) 0 (edIn1 (setDesc op)) 2 = [2, 3]
      ∧ EdgeReads (edgeSite (setDesc op)) 0 0 8 ∧ EdgeReads (edgeSite (setDesc op)) 0 64 16 ∧ EdgeReads (edgeSite (setDesc op)) 0 32 8
      ∧ edRes (setDesc op) + 8 ≤ edOut0 (setDesc op))
    ∧ (∀ p ∈ oneDescs, EdgeHead (edgeSite p.2) 0 p.1 (entry p.2) []) ∧ Memory.wf (edgeSite (setDesc 3)).mem = true
    ∧ edIw (edgeDesc1 0xA 0) = false ∧ ¬4096 < edCount (edgeDesc1 0xA 0) ∧ edParam (edgeDesc1 9 (2 ^ 32)) 35 32 = 1 := by
  unfold EdgeHead EnginesRun EdgeReads Readable; and_intros <;> decide +kernel

theorem witness_EdgeOperationsComplete : through (edgeWalk ((entry (edgeDesc1 0 4)).edge 0) (edgeDesc1 0 4)) (edgeSite (edgeDesc1 0 4)) = true
    ∧ through (edgeSample ((entry (edgeDesc1 6 4)).edge 0) (edgeDesc1 6 4)) (edgeSite (edgeDesc1 6 4)) = true
    ∧ through (edgeDedup ((entry (edgeDesc1 2 4)).edge 0) (edgeDesc1 2 4)) (edgeSite (edgeDesc1 2 4)) = true
    ∧ through (edgeSet 3 ((entry (setDesc 3)).edge 0) (setDesc 3)) (edgeSite (setDesc 3)) = true
    ∧ through (edgeSegmask ((entry (edgeDesc1 7 0)).edge 0) (edgeDesc1 7 0)) (edgeSite (edgeDesc1 7 0)) = true
    ∧ through (edgeHist ((entry (edgeDesc1 9 (2 ^ 32))).edge 0) (edgeDesc1 9 (2 ^ 32))) (edgeSite (edgeDesc1 9 (2 ^ 32))) = true
    ∧ through (edgeSort ((entry (edgeDesc1 0xA 0)).edge 0) (edgeDesc1 0xA 0)) (edgeSite (edgeDesc1 0xA 0)) = true
    ∧ edRes (setDesc 3) + 8 ≤ 6291456 ∧ (edgeSite (setDesc 3)).owns 0 3 (edRes (setDesc 3)) 8 = true
    ∧ ((edgeSite (setDesc 3)).core 0).kVal 0 ≠ 0xFFFF#16 := by
  and_intros <;> decide +kernel

/-- The words an edge operation leaves at OUT0 with the count of its result word. -/
def edgeOut (i : Instr) (d : Quad) : List Nat := match exec i (edgeSite d) with
  | .next t => memRead t.mem 32 4 :: words4 t 0 64 3
  | _ => []
theorem test_isect : edgeOut (.isect 0) (setDesc 3) = [1, 2, 0, 0] := by decide +kernel
theorem test_union : edgeOut (.union 0) (setDesc 4) = [3, 1, 2, 3] := by decide +kernel
theorem test_diff : edgeOut (.diff 0) (setDesc 5) = [1, 1, 0, 0] := by decide +kernel
theorem test_hist : edgeOut (.hist 0) (edgeDesc1 9 (2 ^ 32)) = [2, 1, 1, 0] := by decide +kernel

/-- A gather and a scatter of one row each, at the head of the queue and finished. -/
def rowDesc (op : Nat) : Quad := ⟨BitVec.ofNat 64 (op * 2 ^ 60 + 1), 1#64, 0#64, 0x0400000000000000#64⟩
def rowsDone (op : Nat) : State :=
  ownedBy 3 (withCore 0 { runner with edge := { Edge.reset with ops := [⟨7, entry (rowDesc op), 1, [], 1⟩], nextOp := 8 } })

theorem witness_EdgeOperationsEnd :
    (∀ op ∈ [1, 8], EdgeHead (edgeSite (rowDesc op)) 0 op (entry (rowDesc op)) [] ∧ ((edgeSite (rowDesc op)).core 0).edge.ops = []
      ∧ ((rowsDone op).core 0).edge.ops.find? (fun o => o.id == 7 && edOp o.q.d == op) = some ⟨7, entry (rowDesc op), 1, [], 1⟩
      ∧ (rowsDone op).edgeFinished 0 ⟨7, entry (rowDesc op), 1, [], 1⟩ = true ∧ ((rowsDone op).core 0).enginesRun = true
      ∧ Memory.wf (rowsDone op).mem = true ∧ edRes (rowDesc op) + 8 ≤ 6291456 ∧ (rowsDone op).owns 0 3 (edRes (rowDesc op)) 8 = true
      ∧ ((rowsDone op).core 0).kVal (edKc (rowDesc op)) ≠ 0xFFFF#16) ∧ siteOk 0 = true := by
  unfold EdgeHead EnginesRun; and_intros <;> decide +kernel

theorem test_gather_ends_with_its_rows : leads (exec (.gatherComplete 0 7) (rowsDone 1))
    (fun t => memRead t.mem 32 4 == 1 && (t.core 0).edge.ops.isEmpty && (t.core 0).kVal 0 == 1#16) = true := by decide +kernel

/-! ## Transfers, packets, links -/

/-- A DMA descriptor of an operation, 8 bytes at scratchpad byte 0: to window 0 of die 0 for a multicast, else to slice 0. -/
def dmaDesc (op : Nat) : Quad := match op with
  | 0 | 1 => ⟨BitVec.ofNat 64 (op * 2 ^ 60 + 8 * 2 ^ 24), 0x1000000000000000#64, 0#64, 0#64⟩
  | 2 => ⟨BitVec.ofNat 64 (2 * 2 ^ 60 + 8 * 2 ^ 24), 0x1000000000000000#64, 0#64, 0#64⟩
  | 3 => ⟨BitVec.ofNat 64 (3 * 2 ^ 60 + 8 * 2 ^ 24), 0x1000000000000000#64, 0#64, 0#64⟩
  | 6 => ⟨BitVec.ofNat 64 (6 * 2 ^ 60 + 8 * 2 ^ 24), 0x1000000000000000#64, 0#64, 0#64⟩
  | _ => ⟨BitVec.ofNat 64 (op * 2 ^ 60 + 8 * 2 ^ 24), 0x2000000000000000#64, 0#64, 2#64⟩

/-- Site 0 with a descriptor at the head of the DMA queue and the window of die 0 valid; and with no window. -/
def dmaSite (op : Nat) : State :=
  (ownedBy 4 (withCore 0 { runner with dma := { Dma.reset with q := [entry (dmaDesc op)] } })).setFld (spinePage 0) (WIN_HDR_VALID 0) 1
def dmaClosed (op : Nat) : State := withCore 0 { runner with dma := { Dma.reset with q := [entry (dmaDesc op)] } }

/-- Every operation, with a good descriptor in a good range, one out of range and an invalid one. -/
theorem witness_DmaTransfers :
    (∀ op ∈ [0, 1, 2, 3, 4, 5, 6], EnginesRun (dmaSite op) 0 ∧ ((dmaSite op).core 0).dma.q = [entry (dmaDesc op)]
      ∧ ((dmaSite op).core 0).dma.running.length < 4 ∧ ddOp (dmaDesc op) = op ∧ ddValid (dmaDesc op) = true
      ∧ ddLaddr (dmaDesc op) + ddLen (dmaDesc op) ≤ 6291456
      ∧ (dmaSite op).owns 0 4 (ddLaddr (dmaDesc op)) (ddLen (dmaDesc op)) = true
      ∧ (dmaSite op).rangeOk 0 (dmaDesc op).w1 (ddLen (dmaDesc op)) = true
      ∧ (op ≤ 1 → (ddRows (dmaDesc op)).all (fun x => (dmaSite op).rangeOk 0 x.1 x.2.2) = true)
      ∧ (dmaClosed op).rangeOk 0 (dmaDesc op).w1 (ddLen (dmaDesc op)) = false
      ∧ ddValid { dmaDesc op with w0 := (dmaDesc op).w0 ||| 0x800000#64 } = false)
    ∧ 0 < 512 ∧ (0xFFFFFFFFFFFFFE00#64).toNat + 512 ≤ 2 ^ 64 := by
  unfold EnginesRun; and_intros <;> decide +kernel

/-- R249: 300 bytes at 200 of a granule of space 0x0 are cut at 256 and 512. -/
theorem test_pieces_cut_at_granules : (pieces 301 200#64 0 300 512 0).map (fun p => (p.addr.toNat, p.land, p.len))
    = [(200, 0, 56), (256, 56, 244)] := by decide +kernel

/-- A packet of a type at slice 0's endpoint from site 3 of die 5, and the panel with it. -/
def slicePkt (type : Nat) (data : W256) (arg : BitVec 36) (last : Bool) : Packet :=
  ⟨1, { mkHdr 5 3 (sliceRouter 0) (sliceEp 0) 127 9 0 type with last := last, arg := arg }, data, .endpoint⟩
/-- The clock of row 0 of die 0 runs. -/
def rowOn (s : State) : State := s.setFld (spinePage 0) (rowRun false) 1
def pkState (p : Packet) : State := rowOn { State.reset with fab := { Fabric.reset with packets := [p], nextId := 2 } }

/-- Read requests of 32 and 513 bytes, one for a partition that owns nothing; a write of one byte and the like. -/
def rdPkt (len : Nat) : Packet := slicePkt 0 (BitVec.ofNat 256 ((len - 1) * 2 ^ 64 + 2 ^ 81)) 0#36 true
def wrPkt : Packet := slicePkt 2 0x55#256 0#36 true
def hwrPkt : Packet := slicePkt 3 (BitVec.ofNat 256 (0x55 * 2 ^ 64)) 0#36 true
def mcPkt : Packet := slicePkt 4 (BitVec.ofNat 256 (0x55 * 2 ^ 64)) 0#36 true
def ofPart (q : Nat) (p : Packet) : Packet := { p with h := { p.h with part := q } }

theorem witness_MemoryReadsAndWrites : AtEndpoint (pkState (rdPkt 32)) 1 0 (rdPkt 32)
    ∧ (pkState (rdPkt 32)).gate (rdPkt 32).h 0 32 = .serve (hbmBase 0) ∧ (rdPkt 32).data.getLsbD 81 = true
    ∧ (rdPkt 513).data.toNat / 2 ^ 64 % 2 ^ 16 + 1 = 513 ∧ (rdPkt 512).data.toNat / 2 ^ 64 % 2 ^ 16 + 1 = 512
    ∧ (pkState (rdPkt 32)).gate (ofPart 0 (rdPkt 32)).h 0 32 = .refuse rfPartition
    ∧ (pkState wrPkt).gate { wrPkt.h with drouter := 48, dep := 0x32 } 0 32 = .hold
    ∧ Memory.wf (pkState wrPkt).mem = true
    ∧ AtEndpoint (pkState wrPkt) 1 2 wrPkt ∧ writeBytes wrPkt = some (0, 1, 0x55) ∧ (pkState wrPkt).gate wrPkt.h 0 1 = .serve (hbmBase 0)
    ∧ AtEndpoint (pkState hwrPkt) 1 3 hwrPkt ∧ writeBytes hwrPkt = some (0, 1, 0x55)
    ∧ AtEndpoint (pkState mcPkt) 1 4 mcPkt ∧ writeBytes mcPkt = some (0, 1, 0x55) ∧ (pkState wrPkt).fab.rxs = []
    ∧ linePos 2 (mcCol { mcPkt.h with arg := 0x4000#36 }) ∈ maskBits (mcMask { mcPkt.h with arg := 0x4000#36 }) := by
  unfold AtEndpoint; and_intros <;> decide +kernel

theorem test_write_stores_one_byte : leads (exec (.wr 1) (pkState wrPkt))
    (fun t => t.mem == [(hbmBase 0, 0x55#8)] && t.fab.packets.map (fun p => (p.h.type, p.h.tag)) == [(5, 9)]) = true := by
  decide +kernel

/-- Atomics of 8 bytes on the value 5 with operand 3, of 4 bytes, and a misaligned one. -/
def atPkt (aop len off : Nat) : Packet :=
  slicePkt 6 (BitVec.ofNat 256 (off + 3 * 2 ^ 64 + 5 * 2 ^ 128 + aop * 2 ^ 192 + (if len = 8 then 2 ^ 200 else 0))) 0#36 true
def atState (p : Packet) : State := { pkState p with mem := [(hbmBase 0, 5#8)] }

theorem witness_AtomicsReplaceOneWord :
    (∀ aop ∈ List.range 11, AtEndpoint (atState (atPkt aop 4 0)) 1 6 (atPkt aop 4 0) ∧ atomAop (atPkt aop 4 0) = aop
      ∧ atomLen (atPkt aop 4 0) = 4 ∧ (atState (atPkt aop 4 0)).gate (atPkt aop 4 0).h 0 4 = .serve (hbmBase 0))
    ∧ Memory.wf (atState (atPkt 0 8 0)).mem = true ∧ (atPkt 0 8 0).h.drouter < 384 ∧ (atPkt 0 8 0).h.dep = 0x20
    ∧ atomLen (atPkt 0 8 4) = 8 ∧ 4 % 8 ≠ 0 ∧ (atState (atPkt 0 8 0)).poisonAt (hbmBase 0) 8 32 = none := by
  unfold AtEndpoint; and_intros <;> decide +kernel

theorem test_atomic_add : leads (exec (.atomAdd 1) (atState (atPkt 0 8 0))) (fun t => t.mem == [(hbmBase 0, 8#8)]) = true := by
  decide +kernel
theorem test_atomic_cas : leads (exec (.atomCas 1) (atState (atPkt 9 8 0))) (fun t => t.mem == [(hbmBase 0, 3#8)]) = true := by
  decide +kernel

/-- An open DMA transaction of site 3, its core running, and an answer of a type to it. -/
def tx (len : Nat) : Tx := ⟨0, 3, 9, .dma 3 0, true, 0x1000000000000000#64, 0x1000000000000000#64, 127, 64, 0, len, 0, none, 1⟩
def ansPkt (type : Nat) (arg : BitVec 36) : Packet := ⟨1, { mkHdr 7 0x20 0 3 127 9 1 type with arg := arg }, 0x55#256, .endpoint⟩
def txState (p : Packet) (len : Nat) : State :=
  rowOn (iter 24 (fun b s => s.setReg (corePage 3 + 0x700 + 8 * b) 4#64)
    { withCore 3 { runner with dma := { Dma.reset with ops := [⟨0, entry (dmaDesc 0), [], false⟩], nextOp := 1 } } with
      fab := { Fabric.reset with packets := [p], nextId := 2, txs := [tx len] } })

theorem witness_AnswersReachTheirTransactions : AtEndpoint (txState (ansPkt 5 0#36) 8) 1 5 (ansPkt 5 0#36)
    ∧ (txState (ansPkt 5 0#36) 8).txAt 0 3 9 = some (tx 8) ∧ (ansPkt 5 0#36).h.arg.getLsbD 0 = false
    ∧ (ansPkt 5 1#36).h.arg.getLsbD 0 = true ∧ AtEndpoint (txState (ansPkt 9 0#36) 8) 1 9 (ansPkt 9 0#36)
    ∧ Live (txState (ansPkt 9 0#36) 8) 3 ∧ (∃ o ∈ ((txState (ansPkt 9 0#36) 8).core 3).dma.ops, o.id = 0)
    ∧ (txState (ansPkt 9 0#36) 8).txTimed (tx 8) = true ∧ AtEndpoint (txState (ansPkt 1 0#36) 8) 1 1 (ansPkt 1 0#36)
    ∧ Memory.wf (txState (ansPkt 1 0#36) 8).mem = true ∧ (ansPkt 1 0#36).h.last = false ∧ (tx 8).total = none ∧ (tx 8).count < 16
    ∧ (tx 512).len ≤ 512 ∧ (tx 8).first < 32 ∧ (ansPkt 1 0#36).h.pidx = 0 ∧ 0 < Nat.min (tx 8).len (32 - (tx 8).first)
    ∧ (txState (ansPkt 1 0#36) 8).owns 3 4 (tx 8).land 8 = true ∧ AtEndpoint (txState (ansPkt 7 0#36) 0) 1 7 (ansPkt 7 0#36) := by
  unfold AtEndpoint Live; and_intros <;> decide +kernel

theorem test_read_data_lands : leads (exec (.rdrsp 1) (txState (ansPkt 1 0#36) 8)) (fun t => t.mem == [(spBase 3 + 64, 0x55#8)]) = true := by
  decide +kernel

/-- A signal to site 3, an answer to a tag that is not open, and an open write at a destination. -/
def sigPkt : Packet := ⟨1, { mkHdr 7 0 0 3 127 9 2 8 with arg := 15#36 }, 0#256, .endpoint⟩
def rx : Rx := ⟨5, 3, 9, 2, 0x20, 127, 1, none, none, false⟩
def rxState : State := { State.reset with fab := { Fabric.reset with rxs := [rx] } }

theorem witness_FabricAnswersAndSignals : AtEndpoint (pkState sigPkt) 1 8 sigPkt ∧ (pkState sigPkt).epSite 0 3 127 = some 3
    ∧ sigPkt.h.part = 127 ∧ ((pkState sigPkt).core 3).kVal 15 ≠ 0xFFFF#16
    ∧ AtEndpoint (pkState (ansPkt 5 0#36)) 1 5 (ansPkt 5 0#36) ∧ (pkState (ansPkt 5 0#36)).txAt 0 3 9 = none
    ∧ rxState.fab.rxs.find? (fun y => y.isOf (mkHdr 5 3 2 0x20 127 9 0 2)) = some rx ∧ rx.closed = false ∧ rxState.therm.hold = 0 := by
  unfold AtEndpoint; and_intros <;> decide +kernel

theorem test_signal_counts : leads (exec (.pktSignal 1) (pkState sigPkt)) (fun t => (t.core 3).kVal 15 == 1#16) = true := by decide +kernel

/-- Invalidations of die 0 that run, without and with one to acknowledge. -/
def invState (a : Option (Nat × Nat × Nat)) : State := { State.reset with fab := { Fabric.reset with invs := [⟨0, none, a⟩] } }
theorem witness_CacheAndHbmUpkeep : dieOk 0 = true ∧ dieOk 383 = true ∧ (invState none).fab.invs = [⟨0, none, none⟩]
    ∧ (invState (some (5, 3, 9))).fab.invs = [⟨0, none, some (5, 3, 9)⟩] ∧ sliceOk 4095 = true
    ∧ State.reset.part.hasStack (4095 / 64) = true := by decide +kernel

/-- Routers 0 and 1 in service with the links between them up, and a packet somewhere. -/
def fabState (h : Hdr) (loc : PktLoc) : State :=
  let s := (State.reset.setFld (routerPage 0) RT_STATUS_HOLE 0).setFld (routerPage 1) RT_STATUS_HOLE 0
  let s := ((s.setFld (routerPage 0) (RT_DEAD 0 1) 0).setFld (routerPage 0) (RT_ADAPT 0 1) 2).setFld (routerPage 0) RT_CFG_INJ_STOP 0
  { s with fab := { Fabric.reset with packets := [⟨1, h, 0x55#256, loc⟩], nextId := 2, isolated := false,
                                      links := [(1, { Link.reset with up := true }), (7, { Link.reset with up := true })] } }
def hdr01 : Hdr := mkHdr 0 3 1 0x20 127 9 0 0
def hdr00 : Hdr := mkHdr 1 3 0 0x20 127 9 0 0
def pk (h : Hdr) (loc : PktLoc) : Packet := ⟨1, h, 0x55#256, loc⟩

theorem witness_PacketsMove : dieOk 0 = true ∧ routerPage 0 ≠ routerPage 1
    ∧ (fabState hdr01 (.injq 0)).fab.packets.find? (fun p => p.loc == .injq 0 && p.h.part == 127) = some (pk hdr01 (.injq 0))
    ∧ (fabState hdr01 (.injq 0)).routerRuns 0 = true ∧ (fabState hdr01 (.injq 0)).flag (routerPage 0) RT_CFG_INJ_STOP = false
    ∧ (fabState hdr01 (.injq 0)).admits 0 (pk hdr01 (.injq 0)) = true ∧ (fabState hdr01 (.injq 2)).routerRuns 2 = false
    ∧ (fabState hdr01 (.link 0 1 0 0)).packet 1 = some (pk hdr01 (.link 0 1 0 0)) ∧ nbr 0 1 = some 1
    ∧ (fabState hdr01 (.link 0 1 0 0)).linkUp 0 1 = true ∧ (fabState hdr01 (.link 0 1 0 0)).routerRuns 1 = true
    ∧ hdr01.type ≠ 4 ∧ hdr01.vc ≠ 3 ∧ hdr01.rb ≠ 1 ∧ hdr00.drouter = 0 ∧ hdr01.drouter ≠ 0
    ∧ ((fabState hdr01 (.router 0 4)).routerBoundary 0).flag (routerPage 0) (RT_DEAD 0 1) = false
    ∧ ((fabState hdr01 (.router 0 4)).routerBoundary 0).bank 0 = 0
    ∧ ((fabState hdr01 (.router 0 4)).routerBoundary 0).pick 0 1 0 = some 1
    ∧ ((fabState { hdr01 with drouter := 2 } (.router 0 4)).routerBoundary 0).flag (routerPage 0) (RT_DEAD 0 2) = true := by
  and_intros <;> decide +kernel

theorem test_packet_crosses_its_link : leads (exec (.packetForward 1 true) (fabState hdr01 (.link 0 1 0 0)))
    (fun t => t.fab.packets.map (fun p => p.loc) == [.router 1 3]) = true := by decide +kernel

/-- Planes 0 and 3 open from block 0 to block 1, plane 5 spare, plane 9 failed. -/
def pairState (loc : PktLoc) : State :=
  let p := photPage 0
  let s := ((((fabState hdr01 loc).setFld p (PH_PAIR_WORKING 1) 9).setFld p (PH_PAIR_NWORK 1) 2).setFld p (PH_PAIR_SPARE 1) 32).setFld p
    (PH_PAIR_FAILED 1) 512
  { s with fab := { s.fab with tuning := [(1, [5])], reports := [(0, 1, 3)] } }

theorem witness_EscapeAndTransit : (fabState hdr01 (.router 0 4)).packet 1 = some (pk hdr01 (.router 0 4))
    ∧ (fabState hdr01 (.router 0 4)).routerRuns 0 = true ∧ (pairState (.engine 0 1)).packet 1 = some (pk hdr01 (.engine 0 1))
    ∧ (pairState (.engine 0 1)).therm.hold < 2 ∧ (pairState (.engine 0 1)).pairOpen 0 1 = true
    ∧ (pairState (.engine 0 1)).nextPlane 0 1 = some 0 ∧ (pairState (.engine 0 2)).pairOpen 0 2 = false ∧ blockOk 31 = true
    ∧ State.reset.part.hasTransit = true := by and_intros <;> decide +kernel

/-- A link that has gone down, and one with a lane in training. -/
def linkState (l : Link) : State := { State.reset with fab := { Fabric.reset with links := [(1, l)] } }

theorem witness_LinksAndWavelengths : linkOk 0 1 = true ∧ nbr 0 1 = some 1
    ∧ (fabState hdr01 (.link 0 1 0 1)).fab.packets.find? (fun x => x.onLink 0 1 && x.fails != 0) = some (pk hdr01 (.link 0 1 0 1))
    ∧ (fabState hdr01 (.link 0 1 0 1)).linkUp 0 1 = true ∧ ((fabState hdr01 (.link 0 1 0 1)).link 0 1).up = true
    ∧ ((linkState { Link.reset with reportDue := true }).link 0 1).reportDue = true
    ∧ ((linkState Link.reset).link 0 1).failed.contains 1055 = false ∧ laneGroup 0 ≠ laneGroup 1023
    ∧ 7 ∈ ((linkState { Link.reset with training := [7] }).link 0 1).training
    ∧ waveOk 0 1 0 = true ∧ (pairState .endpoint).fld (photPage 0) (PH_PAIR_WORKING 1) / 2 ^ 0 % 2 = 1
    ∧ 5 ∈ (pairState .endpoint).tuningOf 0 1 ∧ (pairState .endpoint).engineDew 0 = false
    ∧ (pairState .endpoint).fld (photPage 0) (PH_PAIR_FAILED 1) / 2 ^ 9 % 2 = 1 ∧ (pairState .endpoint).fab.combFailed.contains 0 = false
    ∧ (0, 1, 3) ∈ (pairState .endpoint).fab.reports := by and_intros <;> decide +kernel

theorem test_report_returns_the_wave : leads (exec (.wavelengthReport 0 1 3) (pairState (.wave 0 1 3)))
    (fun t => t.fab.packets.map (fun p => p.loc) == [.engine 0 1] && t.fab.reports.isEmpty) = true := by decide +kernel

/-- Routers 0 and 1 in service and no link up. -/
def loneRouters : State := (State.reset.setFld (routerPage 0) RT_STATUS_HOLE 0).setFld (routerPage 1) RT_STATUS_HOLE 0

theorem lone_inLinks (r : Nat) : loneRouters.inLinks r = [] := by
  have h : ∀ p, loneRouters.linkUp r p = false := by
    intro p
    have : (loneRouters.link r p).up = false := rfl
    simp [State.linkUp, this]
  unfold State.inLinks
  rw [List.filterMap_eq_nil_iff]
  intro p _
  simp only [h p]
  cases nbr r p <;> simp

theorem relax_alone (n : Nat) (A : Array Nat) (hA : A.size = n) (E : Array (List Nat)) (hE : ∀ r : Nat, E.getD r [] = []) :
    (Array.range n).map (fun r => (E.getD r []).foldl (fun m q => min m (A.getD q 999 + 1)) (min (A.getD r 999) (A.getD r 999))) = A := by
  apply Array.ext
  · simp [hA]
  · intro i h1 h2
    simp only [Array.getElem_map, Array.getElem_range, hE, List.foldl_nil, Nat.min_self]
    simp [Array.getD, h2]

theorem relax_stays (A : Array Nat) (hA : A.size = 384) (E : Array (List Nat)) (hE : ∀ r : Nat, E.getD r [] = []) (k : Nat) :
    relax E A k A = A := by
  cases k with
  | zero => rfl
  | succ k => rw [relax, relax_alone 384 A hA E hE, if_pos BEq.rfl]

theorem getD_map_range (n : Nat) {α : Type} (f : Nat → α) (d : α) (i : Nat) (h : i < n) : ((Array.range n).map f).getD i d = f i := by
  simp [Array.getD, h]

theorem getD_map_range_nil (n : Nat) {α : Type} (i : Nat) :
    ((Array.range n).map (fun _ => ([] : List α))).getD i [] = [] := by
  by_cases h : i < n <;> simp [Array.getD, h]

theorem onlyAt_size (d : Nat) : (onlyAt d).size = 384 := by simp [onlyAt]

theorem lone_row : ((loneRouters.routesTo [] 0).getD 1 ⟨0, 7, 7, false⟩).reach = false := by
  have h1 : (onlyAt 0).getD 1 999 = 999 := getD_map_range 384 _ 999 1 (by decide)
  unfold State.routesTo distFrom
  simp only [lone_inLinks, getD_map_range_nil, List.filter_nil, List.map_nil]
  rw [getD_map_range 384 _ _ 1 (by decide)]
  simp only [relax_stays _ (onlyAt_size 0) _ (fun r => getD_map_range_nil 384 r), h1]
  rfl

theorem lone_unreached : loneRouters.allReach (loneRouters.routeTables loneRouters.orientKept) = false := by
  have hk : loneRouters.orientKept = [] := by
    unfold State.orientKept
    simp only [lone_inLinks, List.filterMap_nil]
    exact List.flatMap_eq_nil_iff.mpr (fun _ _ => rfl)
  have h0 : loneRouters.hole 0 = false := by decide +kernel
  have h1 : loneRouters.hole 1 = false := by decide +kernel
  rw [hk]
  unfold State.allReach
  rw [List.all_eq_false]
  refine ⟨0, by decide, ?_⟩
  simp only [h0, Bool.false_or, Bool.not_eq_true]
  rw [List.all_eq_false]
  refine ⟨1, by decide, ?_⟩
  have ht : (loneRouters.routeTables []).getD 0 #[] = loneRouters.routesTo [] 0 := by
    simp [State.routeTables, h0]
  rw [ht]
  simp only [h1, Bool.false_or, Bool.not_eq_true]
  exact lone_row

/-- Where no router is in service every one reaches all others; with two and no link they do not. -/
theorem witness_RouteTablesChange : Tab.sorted loneRouters.regs = true
    ∧ State.reset.allReach (State.reset.routeTables State.reset.orientKept) = true
    ∧ loneRouters.allReach (loneRouters.routeTables loneRouters.orientKept) = false
    ∧ ({ State.reset with fab := { Fabric.reset with reorient := true } } : State).fab.reorient = true
    ∧ State.reset.fab.reorient = false :=
  ⟨by decide +kernel, by decide +kernel, lone_unreached, rfl, rfl⟩

/-! ## The scratchpad's machinery -/

/-- Site 0 idle with scratchpad machinery as given and SURVEY enabled. -/
def spSite (x : Sp) : State := (withCore 0 { Core.reset with sp := x }).setFld (corePage 0) SURVEY_CFG_ENABLE 1
/-- The same with the Survey at spare row 1024. -/
def spSpare (x : Sp) : State := (spSite x).setFld (corePage 0) SURVEY_STATUS_ROW 1024

theorem witness_ZeroisationClearsTheScratchpad : siteOk 0 = true ∧ (spSite Sp.reset).coreIdle 0 = true
    ∧ ((spSite Sp.reset).core 0).sp.mig = none ∧ Memory.wf (spSite Sp.reset).mem = true
    ∧ ((spSite Sp.reset).setFld (corePage 0) SP_STATUS_ZERO_BUSY 1).flag (corePage 0) SP_STATUS_ZERO_BUSY = true
    ∧ s0.coreIdle 0 = false ∧ ((spSite { Sp.reset with mig := some ⟨0, 0, 0, false⟩ }).core 0).sp.mig ≠ none := by
  and_intros <;> decide +kernel

theorem test_zeroise_empties : leads (exec (.zeroise 0) { spSite Sp.reset with mem := [(6291455, 1#8), (2 ^ 23, 2#8)] })
    (fun t => t.mem == [(2 ^ 23, 2#8)]) = true := by decide +kernel

theorem witness_SurveyGoesThroughRows : ((spSite { Sp.reset with scrub := [8] }).core 0).sp.scrub = [8]
    ∧ (spSite Sp.reset).flag (corePage 0) SURVEY_CFG_ENABLE = true ∧ (spSite Sp.reset).flag (corePage 0) SURVEY_CFG_PAUSE = false
    ∧ (spSite Sp.reset).flag (corePage 0) SP_STATUS_ZERO_BUSY = false ∧ (spSite Sp.reset).fld (corePage 0) SURVEY_STATUS_ROW < 1024
    ∧ (Sp.reset.holds 0 0).isSome = true ∧ ({ Sp.reset with maps := [(0, ⟨1, 0⟩)] } : Sp).holds 0 0 = none
    ∧ 1024 ≤ (spSpare Sp.reset).fld (corePage 0) SURVEY_STATUS_ROW
    ∧ (({ Sp.reset with maps := [(0, ⟨2, 0⟩)] } : Sp).entry 0 0).state = 2
    ∧ ((spSite { Sp.reset with hold := some ⟨0, 0, false⟩ }).core 0).sp.hold = some ⟨0, 0, false⟩
    ∧ Sp.reset.holds 0 1024 = none
    ∧ ((spSite { Sp.reset with hold := some ⟨0, 0, true⟩ }).core 0).sp.hold = some ⟨0, 0, true⟩ := by and_intros <;> decide +kernel

theorem witness_ScratchpadOwnersAndSpares : siteOk 0 = true ∧ 23 < 24 ∧ 63 < 64 ∧ 1023 < 1024 ∧ (Sp.reset.entry 23 63).state = 0
    ∧ Sp.reset.mig = none ∧ ¬(({ Sp.reset with maps := [(0, ⟨2, 0⟩)] } : Sp).entry 0 0).state = 0
    ∧ ((spSite { Sp.reset with mig := some ⟨23, 63, 1023, false⟩ }).core 0).sp.mig = some ⟨23, 63, 1023, false⟩
    ∧ ((spSite { Sp.reset with mig := some ⟨0, 0, 5, true⟩, hold := some ⟨0, 5, true⟩ }).core 0).sp.hold
        = some ⟨0, (spSite Sp.reset).physRow 0 0 5, true⟩
    ∧ (spSite Sp.reset).coreIdle 0 = true ∧ s0.coreIdle 0 = false ∧ bits 6#64 3 0 = 6 ∧ bits 5#64 3 0 ≤ 5 := by
  and_intros <;> decide +kernel

theorem test_reserved_owner_leaves_the_bank : leads (exec (.ownerWrite 0 23 6#64) (spSite Sp.reset)) (fun t => t.owner 0 23 == 0) = true := by
  decide +kernel

/-! ## Temperatures, clocks, power -/

/-- Firmware running, with the sensors of unit k as given. -/
def hot (k : Nat) (x : Sensed) : State := { fw with therm := { Thermal.reset with unit := [(k, x)] } }
/-- Three samples of 80 °C waiting for the fourth; a die at a temperature; one in die hold. -/
def three (n : Nat) : Sensed := { Sensed.reset with samples := List.replicate 3 (List.replicate n 1280) }
def atTemp (t : Int) : Sensed := { Sensed.reset with value := t, reads := [t, t, t, t] }
def held (t : Int) : Sensed := { atTemp t with hold := true }
/-- Every channel of link 0's first block on, and link 0 mastered by M0. -/
def powered (s : State) : State :=
  { s with power := { s.power with vpmIn := true, ch := (List.range 50).map (fun c => (c, { Channel.reset with on := true, mv := 700, regulated := true })),
                                   pcl := [(0, { Pcl.reset with master := some 0, up := true })] } }
/-- A die on a sensor estimate for more than 60 s. -/
def modelled : State := { hot 0 { atTemp 1280 with model := some 0 } with power := { Power.reset with aon := 60001 * 25000 } }

/-- The first Dome die's region below 800 MHz with its link mastered; block 0 boosted with die 0 at a temperature. -/
def domeSlow : State :=
  { fw.setDome (FREQ_REGION 32) 0x1F with power := { Power.reset with pcl := [(chLink 1600, { Pcl.reset with master := some 0 })] } }
def boosted (t : Int) : State := (hot 0 (atTemp t)).setDome (FREQ_REGION 0) 0x21

theorem witness_TemperaturesAndLimits : State.reset.sensFitted (.compute 383) = true ∧ (List.replicate 4 (0 : Int)).length = sensCount (.compute 383)
    ∧ (State.reset.sens (sensKey (.compute 383))).samples.length < 3 ∧ State.reset.sensFitted (.stack 63) = true
    ∧ ((hot 663 (three 1)).sens (600 + 63)).samples.length = 3 ∧ fourthMean (three 1) [1284] 0 = 1281
    ∧ (hot 663 (three 1)).tin - 80 ≤ 1281 ∧ ((hot 0 (three 4)).sens 0).samples.length = 3
    ∧ fourthMean (three 4) [2880, 2880, 2560, 2560] 0 = 1680 ∧ fourthMean (three 4) [2880, 2880, 2560, 2560] 3 = 1600
    ∧ (1680 - 1680 : Int).natAbs ≤ 80 ∧ (three 4).pair0.flag = false ∧ (three 4).hold = false
    ∧ ((hot 0 (held 1520)).sens 0).hold = true ∧ ((hot 0 (held 1520)).sens 0).value ≤ 1520 ∧ (hot 0 (held 1520)).therm.hold = 0
    ∧ (1680 : Int) ≤ (held 1680).value ∧ ((powered State.reset).chan (spineCh 0)).on = true ∧ (powered State.reset).fwRuns = false
    ∧ (modelled.sens 0).model = some 0 ∧ 0 + 60000 < modelled.ms ∧ modelled.fwRuns = true ∧ modelled.almVal (almKey almSensor 0) 0 = 0
    ∧ fw.power.freq = none ∧ regionOk 39 = true ∧ (hot 0 { atTemp 1441 with throttling := true }).regionHot 0 = true
    ∧ 8 + 2 ≤ fw.regionCode 0 ∧ (fw.setDome (FREQ_REGION 0) 8).regionCode 0 ≤ 8 ∧ fw.regionHot 0 = false
    ∧ (fw.setDome (FREQ_REGION 0) 0x1F).regionCode 0 + 1 ≤ (fw.setDome (FREQ_REGION 0) 0x1F).therm.asked.getD 0 0x20
    ∧ 0x1F + 1 ≤ (domeSlow.therm.asked.getD 32 0x20) ∧ domeSlow.regionCode 32 = 0x1F ∧ domeSlow.targetsOk (oneRegion 32 0x20) = true
    ∧ (boosted 1281).regionHot 0 = false ∧ 0x20 < (boosted 1281).regionCode 0 ∧ (boosted 1281).boostOk 0 = false := by and_intros <;> decide +kernel

theorem test_hold_at_105_degrees : leads (exec (.sensorSample (.compute 0) [2880, 2880, 2560, 2560]) (hot 0 (three 4)))
    (fun t => (t.sens 0).value == 1680 && (t.sens 0).hold) = true := by decide +kernel
theorem test_hold_ends_at_95_degrees : leads (exec (.dieHoldRelease 0) (hot 0 (held 1520))) (fun t => !(t.sens 0).hold) = true := by
  decide +kernel

/-- A hold drained, a partition whose forecast rises, a die in the dew state beside an active one. -/
def heldState (n : Nat) : State := ({ fw with therm := { Thermal.reset with hold := n }, fac := { Facility.reset with silent := false } }).setFld
  (domePage 4) FAC_VALUES_FLOW 900
def risingState : State :=
  { (hot 1 (atTemp 800)).setFld (spinePage 0) TH_STATUS_DEW 1 with
    panel := { Panel.reset with blockOnline := 1#32 }
    parts := [(0, { Partition.reset with state := .active, forecast := [(1000, 500)], cores := [(0, (0, 0))] })] }
def dewDue : State := (powered fw).setFld (spinePage 0) TH_CFG_DEW_S 1

theorem witness_CoolantHoldAndDew : fw.fwRuns = true
    ∧ ({ fw with fac := { Facility.reset with haveFlow := true, haveTemp := true } } : State).fac.haveTemp = true
    ∧ (heldState 1).therm.hold = 1 ∧ (heldState 1).fac.estop ≠ 2 ∧ (heldState 2).therm.hold = 2 ∧ (heldState 2).fac.silent = false
    ∧ 900 ≤ (heldState 2).fld (domePage 4) FAC_VALUES_FLOW ∧ (heldState 2).coolAll = true ∧ (heldState 2).fac.estop = 0
    ∧ partOk 0 = true ∧ risingState.rising 0 = true ∧ risingState.therm.hold = 0 ∧ 0 ∈ risingState.diesOf 0
    ∧ risingState.inDew 0 = true ∧ risingState.activeTemp (blockOf 0) = some 800 ∧ (risingState.sens 0).value < 800 - 192
    ∧ dewDue.inDew 0 = false ∧ dewDue.fld (spinePage 0) TH_CFG_DEW_S ≠ 0 ∧ dewDue.prewarmed 0 = false ∧ (dewDue.chan (spineCh 0)).on = true
    ∧ dewDue.rowIdle 0 false = true ∧ dewDue.rowIdle 0 true = true := by and_intros <;> decide +kernel

/-- Dies at either end of the count: one going up that has fallen more than 20 °C, one going down that has risen so. -/
theorem witness_ThermalCyclesAreCounted : fw.fwRuns = true ∧ ((hot 0 { atTemp 1279 with dirUp := true, hi := 1600 }).sens 0).reads ≠ []
    ∧ (320 : Int) < max 1600 1279 - 1279 ∧ (1601 : Int) - min 1280 1601 = 321 := by and_intros <;> decide +kernel

theorem test_cycle_is_counted : leads (exec .thermalCycleCount (hot 0 { atTemp 1279 with dirUp := true, hi := 1600 }))
    (fun t => t.almVal (almKey almCycles 0) 0 == 1 && !(t.sens 0).dirUp) = true := by decide +kernel
theorem test_twenty_degrees_are_not_enough : leads (exec .thermalCycleCount (hot 0 { atTemp 1280 with dirUp := true, hi := 1600 }))
    (fun t => t.almVal (almKey almCycles 0) 0 == 0 && (t.sens 0).dirUp) = true := by decide +kernel

/-- A frequency change with die 0 in it, and references of die 0. -/
def change (f : FreqChange) : State := { powered fw with power := { (powered fw).power with freq := some f } }
def change0 : FreqChange := ⟨1, oneRegion 0 0x10, [0], [], [], [], [], 1, none⟩
def refs (x : RefState) : State := { State.reset with power := { Power.reset with refs := [(0, x)] } }
def good : RefState := { RefState.reset with aOk := true, bOk := true }

theorem witness_ReferencesAndFrequency : refDieOk 0 = true ∧ refDieOk 531 = true ∧ State.reset.hasDie 531 = true
    ∧ (((refs good).ref 0).setOk false false).holdover = false ∧ (((refs good).ref 0).setOk false false).okOf true = true
    ∧ (((refs { good with bOk := false }).ref 0).setOk false false).okOf true = false
    ∧ (((refs { good with holdover := true }).ref 0).setOk false false).holdover = true
    ∧ (((refs { good with useB := true }).ref 0).setOk false true).useB ≠ false ∧ (refs good).prefB 0 = false
    ∧ (powered fw).fld (spinePage 0) CLK_CFG_IDLE_US ≠ 0 ∧ (powered fw).flag (spinePage 0) CLK_CFG_FORCE_RUN = false
    ∧ (powered fw).rowIdle 0 true = true ∧ ((powered fw).chan (rowCh 0 (b2n true))).on = true
    ∧ ((powered fw).chan (rowCh 0 (b2n true))).tripped = false
    ∧ (change change0).power.freq = some change0 ∧ 0 ∈ change0.dies ∧ 0 ∉ change0.armed
    ∧ 0 ∈ ({ change0 with armed := [0] } : FreqChange).armed ∧ (∀ d ∈ change0.dies, d ∈ ({ change0 with ready := [0] } : FreqChange).ready)
    ∧ (change { change0 with state := 2, armed := [0] }).therm.hold < 2 ∧ 0 < change0.targets.getD (regionOf 0) 0
    ∧ change0.targets.getD (regionOf 0) 0 < 256 ∧ ((change change0).ref 0).holdover = false := by and_intros <;> decide +kernel

theorem test_committed_die_switches : leads (exec (.freqSwitch 0) (change { change0 with state := 2, armed := [0], committed := [0] }))
    (fun t => t.dieCode 0 == 0x10 && t.regionCode 0 == 0x10) = true := by decide +kernel

/-- The panel with M0 powered and link 0 mastered, and with a command outstanding there. -/
def outState (e : PclCmd) : State := { powered fw with power := { (powered fw).power with pcl := [(0, { Pcl.reset with master := some 0, up := true, out := [e] })] } }
def cmdV (a : Option Nat) : PclCmd := ⟨4, 1, 0, 700, 0, 0, a⟩

theorem witness_PowerCommandsAreSent : (powered fw).power.vpmIn = true ∧ ((powered fw).pcl 0).up = true ∧ ((powered fw).boot.ctl 0).powered = true
    ∧ chLink 0 = 0 ∧ chLink 1615 < 8 ∧ (powered fw).verdict 0 0 1 0 900 = 0 ∧ (powered fw).verdict 0 0 1 0 901 ≠ 0
    ∧ (powered fw).verdict 0 0 2 0 1 = 0 ∧ (powered fw).verdict 0 0 3 0 (retainVal 650 false true) = 0
    ∧ (powered fw).verdict 0 0 3 31 (retainVal 550 true true) = 0 ∧ (powered fw).verdict 0 0 4 0 0 = 0 ∧ (powered fw).verdict 0 0 5 0 0 = 0
    ∧ (powered fw).verdict 0 0 6 0 0 = 0 ∧ (powered fw).verdict 0 0 8 0 0 = 0 ∧ ((powered fw).pcl 0).master = some 0 := by
  and_intros <;> decide +kernel

theorem witness_PowerModuleAnswers :
    ((outState (cmdV (some 0))).pcl 0).out.find? (fun e => e.seq == 4 && e.ans == some 0 && e.type != pclReadType) = some (cmdV (some 0))
    ∧ ((outState (cmdV (some 0))).chan 0).mv = 700 ∧ ((outState (cmdV (some 0))).chan 0).on = true
    ∧ ((outState (cmdV (some 2))).pcl 0).out.find? (fun e => e.seq == 4 && e.ans == some 2 && 2 != 0) = some (cmdV (some 2))
    ∧ ((outState { cmdV (some 4) with type := 6 }).pcl 0).out.find? (fun e => e.seq == 4 && e.ans == some 4 && 4 != 0)
        = some { cmdV (some 4) with type := 6 }
    ∧ (List.replicate 50 0#32).length = 50 ∧ chLink (50 * 0) = 0 ∧ (powered fw).chFitted 0 = true ∧ (powered fw).chFitted 1615 = true
    ∧ railOf 0 = .row 0 0
    ∧ ((outState { cmdV (some 0) with type := 5 }).pcl 0).out.find? (fun e => e.type == pclReadType && e.ch == 0 && e.ans == some 0)
        = some { cmdV (some 0) with type := 5 }
    ∧ ({ cmdV none with resends := 3 } : PclCmd).resends = 3 ∧ (cmdV none).resends < 3
    ∧ ((outState (cmdV none)).pcl 0).out.find? (fun e => e.seq == 4) = some (cmdV none)
    ∧ blockOk 31 = true ∧ 31 ∉ (powered fw).power.darkBlocks := by and_intros <;> decide +kernel

/-- R355: a master down at a link is replaced by the other die; the die that released it takes it again. -/
def lost : State := { fw with boot := { fw.boot with c1 := { Ctl.reset with powered := true } }, power := { Power.reset with vpmIn := true, pcl := [(0, { Pcl.reset with master := some 0 })] } }
def freed : State := { fw with power := { Power.reset with vpmIn := true, pcl := [(0, { Pcl.reset with released := some 0, up := true })] } }
theorem witness_PowerLinksPass : (lost.pcl 0).master = some 0 ∧ (lost.pcl 0).up = false ∧ (lost.boot.ctl (1 - 0)).powered = true
    ∧ (freed.pcl 0).master = none ∧ (freed.pcl 0).released = some 0 ∧ (freed.boot.ctl 0).powered = true := by and_intros <;> decide +kernel

theorem test_ack_brings_regulation : leads (exec (.pclAck ⟨0, true⟩ 4) (outState (cmdV (some 0))))
    (fun t => (t.chan 0).regulated && (t.pcl 0).out.isEmpty) = true := by decide +kernel

/-! ## Host commands -/

/-- A packet of an opcode for a partition with P0, P1 and P2. -/
def pkt (op part p0 p1 p2 : Nat) : CmdPkt :=
  ⟨BitVec.ofNat 64 (op + part * 2 ^ 16), BitVec.ofNat 64 p0, BitVec.ofNat 64 p1, BitVec.ofNat 64 p2, 0#64, 0#64, 0#64, 0#64⟩

/-- A FILL of partition 0 waiting under handle 1, and a RUN of core 0 running under handle 2. -/
def fillH : Handle := ⟨1#32, 0, 1, 0, 0, 0, 0x24, 0#16, pkt 0x24 0 0 0 0, false, [], .waiting, 0, false, false, 0, 0, 0, 0, [], 0, 0, 0,
  false, false, 0, false, [], 0, 0⟩
def runH : Handle := { fillH with h := 2#32, opcode := 0x30, state := .running,
                                  pkt := { pkt 0x30 0 (2 ^ 16) 0 8 with p6 := BitVec.ofNat 64 (2 ^ 32) } }

/-- A READY panel: function 0 of port 0 is the administrator, partition 0 has core site 0 and one unit and is bound to function 1,
partition 1 is offered unbound, and a forecast of one entry lies at host address 0. -/
def host (hs : List Handle) : State :=
  let s := (powered fw).setFld (spinePage 0) (SLOT_MAP_VALID 0) 1
  { s with
    boot := { s.boot with ready := true }, ports := [(0, { Port.reset with up := true })], handles := hs
    panel := { Panel.reset with admin := some (0, 0), blockOnline := 1#32 }
    parts := [(0, { Partition.reset with state := .active, bound := true, hport := 0, hfunc := 1, hbmQuota := 3, handleQuota := 4032,
                                         ncores := 1, cores := [(0, (0, 0))], units := [(0, 0)], beff := 10 }),
              (1, { Partition.reset with state := .active })]
    mem := [(hostBase 0 + 6, 1#8), (hostBase 0 + 7, 1#8)] }

def ctx (f : Nat) (q : CmdPkt) : Ctx := ⟨0, f, 0, q, none⟩

/-- Function f's reply ring is on and its next taken packet is q. -/
def withPkt (s : State) (f : Nat) (q : CmdPkt) : State := (s.setFld (barPage 0 f) RQ_CFG_ENABLE 1).setFunc 0 f { Func.reset with inbox := [⟨0, q, none⟩] }

/-- A command that passes its checks, as the packet that function f's controller has just taken. -/
def passes (m : Cmd) (hs : List Handle) (f : Nat) (q : CmdPkt) : Bool :=
  let s := withPkt (host hs) f q
  s.hasFunc 0 f && ringOk 0 && (s.func 0 f).inbox.head? == some ⟨0, q, none⟩ && (s.server 0).isSome && s.canReply 0 f
    && pktOp q == m.op && m.check (ctx f q) (taken s 0 f) == 0

theorem witness_CmdTaken : CmdTaken (withPkt (host []) 0 (pkt 0 127 0 0 0)) 0 0 0 (pkt 0 127 0 0 0) := by
  unfold CmdTaken; and_intros <;> decide +kernel

theorem witness_ImmediateCommandsAct : passes cmdNop [] 0 (pkt 0 127 0 0 0) = true ∧ passes cmdQueryCap [] 0 (pkt 1 127 0 0 0) = true
    ∧ passes cmdQueryPart [] 1 (pkt 2 0 0 0 0) = true ∧ passes cmdQueryHandle [fillH] 1 (pkt 3 0 1 0 0) = true
    ∧ passes cmdQueryOffered [] 0 (pkt 4 127 0 0 0) = true ∧ passes cmdBind [] 2 (pkt 8 127 1 0 0) = true
    ∧ passes cmdUnbind [] 1 (pkt 9 127 0 0 0) = true ∧ passes cmdAdminChallenge [] 0 (pkt 0x0A 127 0 0 0) = true
    ∧ passes cmdAdminRelease [] 0 (pkt 0x0B 127 0 0 0) = true ∧ passes cmdSetQuota [] 0 (pkt 0x13 127 0x400 0 0xFFFFFFFFFFFFFFFF) = true
    ∧ passes cmdSetOrphan [] 1 (pkt 0x14 0 0x300 3600000 7) = true ∧ passes cmdResume [] 1 (pkt 0x16 0 0 0 0) = true
    ∧ passes cmdEphemeris [] 1 (pkt 0x17 0 0 24 0) = true ∧ passes cmdMemAlloc [] 1 (pkt 0x20 0 2 0 0) = true
    ∧ passes cmdAbort [fillH] 1 (pkt 0x31 0 1 0 0) = true ∧ passes cmdSetReg [] 1 (pkt 0x32 0 (2 ^ 32 + 0x488) 0 0) = true
    ∧ passes cmdDebugChallenge [] 0 (pkt 0x41 127 0 0 0) = true ∧ passes cmdLogRing [] 0 (pkt 0x42 127 4096 0 0) = true
    ∧ passes cmdSetCeiling [] 0 (pkt 0x43 127 4800 0 0) = true := by and_intros <;> decide +kernel

/-- What their clauses ask besides: the handle named, the forecast read, the units, the core of SET_REG, each MODE. -/
theorem witness_ImmediateOperands : (ctx 1 (pkt 3 0 1 0 0)).named (host [fillH]) = some fillH ∧ fillH.state ≠ .complete
    ∧ (ctx 1 (pkt 3 0 1 0 0)).named (host [{ fillH with state := .complete }]) = some { fillH with state := .complete }
    ∧ foreOf (ctx 1 (pkt 0x17 0 0 24 0)) (host []) = some [(0, 0)] ∧ ((host []).freeRun 0 2).1 = some 1
    ∧ regCount (ctx 1 (pkt 0x32 0 (2 ^ 32 + 0x488) 0 0)) = 1 ∧ (host []).lsite 0 0 = some 0
    ∧ bits (pkt 0x0A 127 0 0 0).p0 1 0 = 0 ∧ bits (pkt 0x0A 127 1 0 5421).p0 1 0 = 1 ∧ bits (pkt 0x0A 127 2 0 5421).p0 1 0 = 2 := by
  and_intros <;> decide +kernel

/-- DEBUG_UNLOCK's modes 1 and 2 need every partition FREE. -/
def bare : State := { host [] with parts := [] }
theorem witness_DebugRelock : cmdDebugRelock.check (ctx 0 (pkt 0x41 127 2 0 0)) bare = 0 := by decide +kernel

/-- Where a signature is checked the outcome is Config's: with it, the requests pass their checks. -/
theorem witness_DebugUnlock (h : bare.tokenOk (ctx 0 (pkt 0x41 127 1 0 5421)) = true) :
    cmdDebugUnlock.check (ctx 0 (pkt 0x41 127 1 0 5421)) bare = 0 := by
  have h0 : (bits (ctx 0 (pkt 0x41 127 1 0 5421)).q.p0 1 0 == 3 || bits (ctx 0 (pkt 0x41 127 1 0 5421)).q.p2 15 0 != 5421) = false := by
    rfl
  have h1 : cmdDebugUnlock.token (ctx 0 (pkt 0x41 127 1 0 5421)) bare = 0 := by
    unfold cmdDebugUnlock; dsimp only
    rw [if_neg (by rw [h0]; exact Bool.false_ne_true), if_pos h]
  have h2 : bare.boot.ready = true := by decide +kernel
  have h3 : cmdDebugUnlock.role.ok (ctx 0 (pkt 0x41 127 1 0 5421)) bare = true := by decide +kernel
  have h4 : (cmdDebugUnlock.reservedOk (ctx 0 (pkt 0x41 127 1 0 5421)) && cmdDebugUnlock.role.partOk (ctx 0 (pkt 0x41 127 1 0 5421))
      && cmdDebugUnlock.param (ctx 0 (pkt 0x41 127 1 0 5421)) bare) = true := by decide +kernel
  have h5 : cmdDebugUnlock.quota (ctx 0 (pkt 0x41 127 1 0 5421)) bare = true := by decide +kernel
  have h6 : cmdDebugUnlock.ready (ctx 0 (pkt 0x41 127 1 0 5421)) bare = true := by decide +kernel
  have h7 : cmdDebugUnlock.later = false := rfl
  simp [Cmd.check, h1, h2, h3, h4, h5, h6, h7, stOk]

/-- Commands that complete later, each passing its checks; one of another role's that does not. -/
theorem witness_CommandsAreCheckedAndAccepted : passes cmdPartCreate [] 0
      ⟨BitVec.ofNat 64 (0x10 + 127 * 2 ^ 16), 0x37F#64, 0#64, 0#64, 1#64, 1#64, 10#64, 0#64⟩ = true
    ∧ passes cmdPartResize [] 0 (pkt 0x11 127 0 1 3) = true ∧ passes cmdPartDestroy [] 1 (pkt 0x12 0 0 0 0) = true
    ∧ passes cmdPause [] 1 (pkt 0x15 0 0 0 0) = true ∧ passes cmdMemFree [] 1 (pkt 0x21 0 (2 ^ 16) 0 0) = true
    ∧ passes cmdCopyIn [] 1 (pkt 0x22 0 0 0 0) = true ∧ passes cmdCopyOut [] 1 (pkt 0x23 0 0 0 0) = true
    ∧ passes cmdFill [] 1 (pkt 0x24 0 0 0 0) = true ∧ passes cmdCheckpoint [runH] 1 (pkt 0x25 0 2 0 0) = true
    ∧ passes cmdCheck [] 1 (pkt 0x26 0 0 1 0) = true ∧ passes cmdRun [] 1 (pkt 0x30 0 (2 ^ 16) 0 8) = true
    ∧ passes cmdFwUpdate [] 0 (pkt 0x40 127 0 8193 0) = true ∧ cmdRun.check (ctx 2 (pkt 0x30 0 (2 ^ 16) 0 8)) (host []) = stRejRole
    ∧ opcodes.contains (pktOp (pkt 5 127 0 0 0)) = false ∧ (host []).freeHandle true = some 0 ∧ (host []).freeHandle false = some 4032 := by
  and_intros <;> decide +kernel

/-- A reserved opcode is answered, and NOP as well. -/
theorem test_reserved_opcode_is_answered : exec (.hostReservedOpcode 0 0 0 (pkt 5 127 0 0 0)) (withPkt (host []) 0 (pkt 5 127 0 0 0))
    = .next ((taken (withPkt (host []) 0 (pkt 5 127 0 0 0)) 0 0).reply 0 0 stRejOpcode 0#32 0#16 false 0#64) := by rfl
theorem test_mem_alloc_takes_the_lowest_units : leads (exec (.memAlloc 0 1 0 (pkt 0x20 0 2 0 0))
      (withPkt { host [] with hbm := { Hbm.reset with built := true } } 1 (pkt 0x20 0 2 0 0)))
    (fun t => (t.prt 0).units.map (fun e => e.1) == [0, 1, 2]) = true := by decide +kernel

/-- RUN 2 of partition 0 with its core halted, and stalled at EPOCH with its copy made. -/
def running (c : Core) : State := { host [runH] with cores := [(0, { c with handle := 2#32, part := 0 })] }
def epochCore : Core := { runner with seq := .wait, stall := some .epochCommit, arrived := true, copied := true }

theorem witness_CommandsComplete : (running { runner with seq := .halted }).handle 2#32 = some runH ∧ runH.opcode = 0x30 ∧ runH.state = .running
    ∧ ((running { runner with seq := .halted }).jobSites 2#32).length = runH.lcCount
    ∧ (∀ g ∈ (running { runner with seq := .halted }).jobSites 2#32, ((running { runner with seq := .halted }).core g).seq = .halted)
    ∧ bits runH.pkt.p6 47 32 ≠ 0 ∧ ((running runner).prt runH.part).causes = [] ∧ runH.state ≠ .complete
    ∧ (host [{ fillH with opcode := 0x15, state := .running }]).handle 1#32 = some { fillH with opcode := 0x15, state := .running }
    ∧ (∀ g ∈ (host []).partSites 0, ((host []).core g).seq ≠ .run ∧ ((host []).core g).seq ≠ .wait)
    ∧ ((host []).prt 0).state ≠ .paused ∧ partOk 63 = true
    ∧ (({ host [] with parts := [(0, { Partition.reset with state := .creating })] } : State).prt 0).state = .creating
    ∧ (({ host [] with parts := [(0, { Partition.reset with state := .destroying })] } : State).prt 0).state = .destroying := by
  and_intros <;> decide +kernel

def broke : State := (host [fillH]).updPrt 0 (fun x => { x with spent := 11 })

theorem witness_AccountingAndAdmission : (host [fillH]).fwRuns = true ∧ partOk 0 = true ∧ ((host [fillH]).prt 0).live = true
    ∧ (host [fillH]).handles.filter (fun h => h.target == 0 && h.state == .waiting) = [fillH] ∧ (host [fillH]).handle 1#32 = some fillH
    ∧ (host [fillH]).afterOk fillH = true ∧ ((host [fillH]).prt 0).state ≠ .paused
    ∧ ((host [fillH]).prt 0).spent + (host [fillH]).reserved 0 + min ((host [fillH]).predict fillH) ((host [fillH]).prt 0).beff
        ≤ ((host [fillH]).prt 0).beff
    ∧ ¬(broke.prt 0).spent + broke.reserved 0 + min (broke.predict fillH) (broke.prt 0).beff ≤ (broke.prt 0).beff := by and_intros <;> decide +kernel

/-- Ring 0 of function 0 of port 0 off and on with eight entries; the doorbells' good and bad values. -/
def ringOn : State :=
  let b := barPage 0 0
  ((((host []).setFld b (SQ_CFG_LOG2SIZE 0) 3).setFld b (SQ_CFG_ENABLE 0) 1).setFld b RQ_CFG_ENABLE 1).setFld b CQ_CFG_ENABLE 1

/-- The same with a command in ring 0. -/
def fetchable : State := ringOn.setFunc 0 0 { Func.reset with sqTail := [(0, 1)] }

theorem witness_RingsAndPorts : ringOn.hasFunc 0 0 = true ∧ (ringOn.port 0).up = true ∧ ringOn.fwRuns = true ∧ ringOk 7 = true
    ∧ ringOn.flag (barPage 0 0) (SQ_CFG_ENABLE 0) = true ∧ bits 7#64 15 0 < ringSize (ringOn.fld (barPage 0 0) (SQ_CFG_LOG2SIZE 0))
    ∧ ¬bits 65535#64 15 0 < ringSize (ringOn.fld (barPage 0 0) (SQ_CFG_LOG2SIZE 0))
    ∧ (host []).flag (barPage 0 0) (SQ_CFG_ENABLE 0) = false ∧ bits 0x1000#64 63 12 ≠ ringOn.fld (barPage 0 0) (SQ_BASE_W 0)
    ∧ headOk (ringOn.flag (barPage 0 0) RQ_CFG_ENABLE) (ringOn.fld (barPage 0 0) RQ_CFG_LOG2SIZE) (ringOn.func 0 0).rqHead
        (ringOn.fld (barPage 0 0) RQ_CFG_TAIL) 0 = true
    ∧ headOk (ringOn.flag (barPage 0 0) RQ_CFG_ENABLE) (ringOn.fld (barPage 0 0) RQ_CFG_LOG2SIZE) (ringOn.func 0 0).rqHead
        (ringOn.fld (barPage 0 0) RQ_CFG_TAIL) 1 = false
    ∧ (host []).boundPart 0 1 = some 0 ∧ ((host []).server 0).isSome = true ∧ ({ Func.reset with unsignalled := 1 } : Func).unsignalled ≠ 0
    ∧ ({ Port.reset with answers := true } : Port).up = false ∧ partOk 1 = true
    ∧ ({ Partition.reset with orphaned := true } : Partition).causes = []
    ∧ (((List.range 64).map (fun j => ((fetchable.port 0).turn + j) % 64)).find?
        (fun f => 0 < fetchable.rqRoom 0 f && (fetchable.nextRing 0 f (fetchable.func 0 f).cur).isSome)) = some 0
    ∧ fetchable.nextRing 0 0 (fetchable.func 0 0).cur = some 0 := by and_intros <;> decide +kernel

/-! ## Errors, recovery and repair -/

/-- The panel with one Almanac entry, in both copies. -/
def withAlm (k v : Nat) (s : State) : State :=
  { s with alm := { s.alm with copy0 := [(k, ⟨1, v, true⟩)], copy1 := [(k, ⟨1, v, true⟩)], stamp := 1 } }

def errOf (src : Nat) : ErrItem := ⟨src, 0, 0, 2#32, 0, 0, 0, 0#64, ⟨0#64, 0#64, 0#64, 0#64⟩, false, 0, 0⟩
def queued (src : Nat) : State := { fw with err := { Errors.reset with queue := [errOf src] } }
def handled (ph : Nat) : State :=
  { running runner with err := { Errors.reset with handling := some ⟨errOf srcSiteLost, 0, false, 0, [2#32], ph, 0, [], [], []⟩ } }

theorem witness_ErrorsAreHandled : siteOk 6143 = true ∧ s0.siteState 6142 ≤ 1 ∧ s0.errKnown srcSiteLost 6142 (dieOfSite 6142) = false
    ∧ s0.err.handling = none ∧ dieOk 383 = true ∧ s0.dieState 383 ≤ 2 ∧ s0.errKnown srcDieLost (16 * 383) 383 = false
    ∧ (queued 1).err.queue = [errOf 1] ∧ (errOf 3).source ≤ 3 ∧ (queued srcHbmLost).err.queue = [errOf srcHbmLost]
    ∧ (3 < (errOf 4).source ∧ (errOf 4).source ≠ srcHbmLost) ∧ (handled 0).err.handling.map (fun h => h.phase) = some 0
    ∧ ({ s0 with err := { Errors.reset with storm := true } } : State).err.storm = true
    ∧ (handled 1).err.handling.map (fun h => (h.phase, h.jobs)) = some (1, [2#32]) ∧ (handled 1).therm.hold = 0
    ∧ (∀ g ∈ (handled 1).jobSites 2#32, (handled 1).unacked g = 0) ∧ (handled 1).jobSites 2#32 = [0]
    ∧ (handled 2).err.handling.map (fun h => h.phase) = some 2 := by and_intros <;> decide +kernel

def committing : State := running epochCore
def mirrored : State :=
  { (withCore 0 { epochCore with copied := false }) with panel := { Panel.reset with blockOnline := 0xFF#32 } }
def coalescing (n : Nat) : State := { fw with err := { Errors.reset with coalesced := [(0x10, 7, n)] } }

theorem witness_EpochsAndRecords : committing.handle 2#32 = some runH ∧ committing.atCommit runH = true
    ∧ (committing.openSites 2#32).Nodup ∧ committing.openSites 2#32 = [0] ∧ committing.err.expelling = [] ∧ runH.epoch + 1 < 2 ^ 64
    ∧ (mirrored.core 0).arrived = true ∧ (mirrored.core 0).copied = false ∧ (mirrored.partner (dieOfSite 0)).isSome = true
    ∧ (coalescing 0).err.coalesced.find? (fun e => e.1 == 0x10 && e.2.1 == 7) = some (0x10, 7, 0)
    ∧ (coalescing 1).err.coalesced.find? (fun e => e.1 == 0x10 && e.2.1 == 7) = some (0x10, 7, 1)
    ∧ partOk 0 = true ∧ ((host []).prt 0).live = true := by and_intros <;> decide +kernel

/-- The watchdog stops the core and queues its error; a commit gives the core the next epoch. -/
theorem test_watchdog_queues_the_site : leads (exec (.seqWatchdog 0) s0)
    (fun t => (t.core 0).seq != .run && t.err.queue.any (fun e => e.source == srcSiteLost && e.site == 0)) = true := by decide +kernel
theorem test_commit_moves_on : leads (exec (.epochCommit 2#32) committing)
    (fun t => (t.core 0).seq == .run && (t.core 0).pc == 1 && t.fld (corePage 0) EPOCH_REG_W == 1) = true := by decide +kernel

/-- Die 1 with score 300, its block with a reserve, die 0, or without. -/
def worn (s : State) : State := { s with alm := { s.alm with events := [(1, 700, 0)] } }
def noReserve : State := worn (withAlm (almKey almDie 0) dieCounted fw)
def dewy (s : State) : State := s.setFld (spinePage 0) TH_STATUS_DEW 1

theorem witness_UnitsLeaveAndReturn : dieOk 0 = true ∧ 0 ∉ fw.err.expelling ∧ fw.expelScore ≤ fw.score 0
    ∧ noReserve.score 1 = 300 ∧ noReserve.score 1 < noReserve.expelScore ∧ noReserve.dieState 1 = dieCounted
    ∧ noReserve.reserveOf (blockOf 1) = none
    ∧ (let w := worn fw
       w.dieCounts 1 = true ∧ w.score 1 < w.expelScore ∧ w.reserveOf (blockOf 1) = some 0 ∧ w.expelFree (blockOf 1) = true
        ∧ w.err.waiting = [] ∧ w.dieJobs 1 = [])
    ∧ (let w := dewy (withAlm (almKey almSite 0) siteFailedField fw)
       w.siteState 0 = siteFailedField ∧ w.flag (spinePage (dieOfSite 0)) TH_STATUS_DEW = true ∧ w.almVal (almKey almRetest 0) 0 < 3)
    ∧ (withAlm (almKey almSite 0) siteRetest fw).siteState 0 = siteRetest ∧ (fw.rowCount 0 = 7 ∧ fw.rowCount 6136 = 7)
    ∧ ((withAlm (almKey almSite 0) siteRetest fw).rowCount 0 = 6)
    ∧ (let w := dewy (withAlm (almKey almDie 0) dieRetired fw)
       w.dieState 0 = dieRetired ∧ w.dieParts 0 = [] ∧ w.flag (spinePage 0) TH_STATUS_DEW = true ∧ w.almVal (almKey almRetest 8192) 0 < 3)
    ∧ (withAlm (almKey almDie 0) dieRetest fw).dieState 0 = dieRetest := by and_intros <;> decide +kernel

def baseErr (p r : List Nat) : State := { fw with err := { Errors.reset with preserved := p, resetting := r } }
def halves (a b : Ctl) : State := { fw with boot := { fw.boot with c0 := a, c1 := b } }
def up7 : Ctl := { Ctl.reset with running := true, powered := true, stage := 7 }
/-- Link 4 claimed for the other management die, a heartbeat 10 ms ago or within them. -/
def claimed (b : Nat) : State :=
  { fw with power := { Power.reset with aon := 250000, pcl := [(4, { Pcl.reset with master := some 1, beat := b })] } }

theorem witness_BasesBlocksAndHalves : (baseErr [] []).baseState 95 = 0 ∧ 95 ∉ (baseErr [] []).err.preserved
    ∧ 95 ∈ (baseErr [95] []).err.preserved ∧ 95 ∈ (baseErr [] [95]).err.resetting ∧ (baseErr [] [95]).baseState 95 ≠ 2
    ∧ blockOk 31 = true ∧ 31 ∈ ({ host [] with power := { (host []).power with darkBlocks := [31] } } : State).power.darkBlocks
    ∧ (host []).fwRuns = true ∧ (host []).boot.ready = true ∧ (host []).fab.isolated ≠ false
    ∧ ({ host [] with boot := { (host []).boot with trained := true } } : State).boot.trained = true
    ∧ ({ fw with fab := { Fabric.reset with isolated := false } } : State).fab.isolated ≠ true
    ∧ (fw.boot.ctl 0).running = true ∧ (fw.boot.ctl 0).sole = false ∧ (fw.boot.ctl 1).restarting = false
    ∧ (∀ n ∈ ctlLinks 1, (claimed 0).claimOk n 0 = true) ∧ (∃ n ∈ ctlLinks 1, (claimed 1).claimOk n 0 = false) := by
  and_intros <;> decide +kernel

/-! ## Start-up, controllers, trust -/

def image : FwImage := ⟨true, 0, 0, 0, 0#32, 5#32, true, true, true, true, 0#384⟩
def badImage : FwImage := { image with edSigOk := false }

/-- Controller 0 as given and controller 1 as reset, on a powered panel. -/
def booting (c : Ctl) : State := halves { c with powered := true } Ctl.reset
def portState (p : Port) : State :=
  { fw with ports := [(0, p)], power := { Power.reset with ch := [(1600, { Channel.reset with on := true }), (1601, { Channel.reset with on := true })] } }

theorem witness_InputLossEmptiesThePanel : (powered fw).power.vpmIn = true ∧ fw.power.vpmIn = false ∧ Memory.wf (host []).mem = true := by
  and_intros <;> decide +kernel

theorem witness_StartUpSteps : fw.part.hasPort 0 = true ∧ fw.part.hasPort 3 = true
    ∧ ((portState Port.reset).chan 1600).on = true ∧ ((portState Port.reset).chan 1601).on = true ∧ ((portState Port.reset).port 0).lost = false
    ∧ (let s := booting { Ctl.reset with slotA := ⟨some image, false⟩ }
       s.boot.resetPending = false ∧ (s.boot.ctl 0).powered = true ∧ (s.boot.ctl 0).running = false ∧ (s.boot.ctl 0).pending = none
        ∧ s.slotOk 0 (s.boot.ctl 0).activeB = some image)
    ∧ (let s := booting Ctl.reset
       s.boot.resetPending = false ∧ (s.boot.ctl 0).powered = true ∧ (s.boot.ctl 0).pending = none ∧ s.slotOk 0 false = none
        ∧ s.slotOk 0 true = none)
    ∧ (let s := booting { up7 with stage := 2, pending := some false }
       (s.boot.ctl 0).pending = some (s.boot.ctl 0).runB ∧ (s.boot.ctl 0).running = true ∧ (s.boot.ctl 0).stage = 2)
    ∧ ((booting { Ctl.reset with recovery := true }).boot.ctl 0).recovery = true
    ∧ (booting { Ctl.reset with recovery := true }).imageOk image = true
    ∧ (booting { up7 with stage := 2 }).halfCtl 0 = some 0 ∧ ((booting { up7 with stage := 2 }).boot.ctl 0).stage = 2
    ∧ (booting { up7 with stage := 3 }).halfCtl 0 = some 0 ∧ ((booting { up7 with stage := 3 }).boot.ctl 0).stage = 3
    ∧ (∀ x ∈ [TestFail.site 0, .die 0, .row 0 23 1087], failHalf x = 0 ∧ fw.failFitted x = true)
    ∧ ((booting up7).boot.ctl 0).heard = false ∧ ((booting up7).boot.ctl 0).sole = false ∧ (booting up7).boot.ready = false := by
  and_intros <;> decide +kernel

def stages (n : Nat) : State := halves { up7 with stage := n } { up7 with stage := n }
def almBadState : State := { stages 4 with alm := { Almanac.reset with copy0 := [(1, ⟨1, 0, false⟩)], copy1 := [(1, ⟨1, 0, false⟩)] } }
def booted (m t : Bool) (n : Nat) : State := { stages n with boot := { (stages n).boot with mergedOk := m, trained := t } }

theorem witness_MergeTrainAndMap : ((stages 4).boot.ctl 0).stage = 4 ∧ ((stages 4).boot.ctl 1).stage = 4 ∧ (stages 4).fwRuns = true
    ∧ (∀ e ∈ (withAlm (almKey almDie 1) dieReserve (stages 4)).almJoin.alm.copy0, e.2.ok = true)
    ∧ (∃ e ∈ almBadState.almJoin.alm.copy0, e.2.ok = false) ∧ (booted true false 5).boot.mergedOk = true
    ∧ (booted true false 5).boot.trained = false ∧ (booted true true 6).boot.trained = true ∧ (booted true true 6).boot.ready = false
    ∧ ((booted true true 6).boot.ctl 0).stage = 6 ∧ (booted true true 6).boot.debugRestart = false
    ∧ (booted true true 6).boot.update = none := by and_intros <;> decide +kernel

def updating (u : Update) (held : Bool) : State := { halves up7 up7 with boot := { (halves up7 up7).boot with update := some u, held390 := held } }
def upd (i : Option FwImage) (n : Nat) : Update := ⟨1#32, i, false, false, false, n⟩

theorem witness_ControllersAndUpdates : (updating (upd (some image) 3) false).restartDue
      ((updating (upd (some image) 3) false).updateFirst (upd (some image) 3)) = true
    ∧ (∀ m, m < 2 → ((updating (upd (some image) 3) false).boot.ctl m).running = true
        ∧ ((updating (upd (some image) 3) false).boot.ctl m).restarting = false)
    ∧ ((halves { up7 with restarting := true } up7).boot.ctl 0).restarting = true
    ∧ ((halves up7 { up7 with sole := true }).boot.ctl 1).sole = true ∧ ((halves up7 { up7 with sole := true }).boot.ctl 0).running = true
    ∧ (updating (upd none 1) false).boot.update = some (upd none 1) ∧ (updating (upd none 1) false).fwRuns = true
    ∧ (updating (upd none 1) false).imageOk image = true ∧ (updating (upd none 1) false).imageOk badImage = false
    ∧ (updating (upd (some image) 3) false).errBusy = false
    ∧ (updating (upd (some image) 3) false).fwVersion.toNat < ({ image with peerMin := 1#32 } : FwImage).peerMin.toNat
    ∧ (upd (some image) 3).restart = false ∧ (updating (upd (some image) 3) true).boot.held390 = true := by and_intros <;> decide +kernel

def answering (x : Spdm) : State :=
  { fw with ports := [(0, { Port.reset with answers := true })], spdm := [(0, x)] }

/-- A request in each state of the responder; slots and indices at both ends of their ranges. -/
theorem witness_AttestationAndTestPort : fw.part.hasPort 0 = true ∧ (answering Spdm.reset).server 0 = some 0
    ∧ ((answering Spdm.reset).port 0).answers = true ∧ ((answering Spdm.reset).spdm.getD 0 Spdm.reset).version = false
    ∧ ((answering Spdm.reset).spdm.getD 0 Spdm.reset).caps = false ∧ ((answering Spdm.reset).spdm.getD 0 Spdm.reset).algs = false
    ∧ ((answering { Spdm.reset with version := true }).spdm.getD 0 Spdm.reset).version = true
    ∧ ((answering { Spdm.reset with caps := true }).spdm.getD 0 Spdm.reset).caps = true
    ∧ ((answering { Spdm.reset with algs := true }).spdm.getD 0 Spdm.reset).algs = true
    ∧ (1 < 2 ∧ 0 ≤ (((answering Spdm.reset).boot.ctl 0).chain 1).length) ∧ (1 < 2 ∨ (((answering Spdm.reset).boot.ctl 0).chain 2).length < 0)
    ∧ (1 ≤ 5 ∧ 5 ≤ 5 ∧ 5 < 6 ∧ 6 ≠ 255) ∧ fw.boot.c0.powered = true ∧ fw.boot.tapOpen = false
    ∧ ({ fw.boot with unlocked := true, scope := 1 } : Boot).tapOpen = true := by
  refine ⟨?_, ?_, ?_, ?_, ?_, ?_, ?_, ?_, ?_, ⟨?_, Nat.zero_le _⟩, Or.inl ?_, ?_, ?_, ?_, ?_⟩ <;> decide +kernel

theorem test_tap_without_debug_bypasses : leads (exec (.tapAccess (.other 5 true)) fw) (fun t => t.boot.tdo == 1#32 && t.free == fw.free) = true := by
  decide +kernel
theorem test_spdm_order : leads (exec (.getDigests 0) (answering Spdm.reset))
    (fun t => (t.spdm.getD 0 Spdm.reset).response == spdmError spdmUnexpected 0) = true := by decide +kernel

/-! ## The facility port -/

/-- Facility channel 0 up with 254 as its last counter, the port as given besides. -/
def facing (f : Facility) : State :=
  { powered fw with fac := { f with ch := [(0, { FacChan.reset with up := true, base := false, last := 254#8 })] }
                    power := { (powered fw).power with ch := [(1612, { Channel.reset with on := true })] } }
def facNow : State := facing { Facility.reset with silent := false }

/-- One ahead, and four ahead across the wrap; the same counter, and five ahead. -/
theorem witness_FacilityFrames : InStep facNow 0 255#8 ∧ InStep facNow 0 2#8 ∧ facNow.fwRuns = true
    ∧ (∀ k, k < 9 → facNow.fac.acted.find k = none) ∧ (facNow.facCh 0).last = 254#8 ∧ 4 < (3#8 - (facNow.facCh 0).last).toNat
    ∧ (359#16).toNat < 360 ∧ facNow.fac.silent = false ∧ facNow.fac.estop < (1#8).toNat ∧ facNow.therm.hold ≠ 2
    ∧ (0xFF030000#32).toNat / 2 ^ 18 % 64 = 0 ∧ (facing Facility.reset).fac.silent = true
    ∧ (facing { Facility.reset with held := true }).fac.held = true
    ∧ bits 0x3F8000FFFF#64 30 26 = 0 ∧ bits 0x3F8000FFFF#64 63 38 = 0 := by unfold InStep; and_intros <;> decide +kernel

theorem witness_PanelFrames : fw.fwRuns = true
    ∧ ({ fw with therm := { Thermal.reset with precool := some (1, 2, 3, 40) } } : State).therm.precool = some (1, 2, 3, 40)
    ∧ fw.therm.precool = none
    ∧ ({ fw with fac := { Facility.reset with sent := [(6, (1, 5))] } } : State).fac.sent.find 6 = some (1, 5) := by
  and_intros <;> decide +kernel

theorem test_ceiling_is_held_in_bounds : leads (exec (.facCeiling 0 255#8 0xFFFF#32) facNow) (fun t => t.fac.ceilNext == some 12000) = true := by
  decide +kernel
theorem test_counter_five_ahead_is_refused : leads (exec (.facFlow 0 3#8 900#16) facNow)
    (fun t => !t.fac.haveFlow && (t.facCh 0).last == 254#8) = true := by decide +kernel

/-! ## Check units, registers, the queue -/

def scanning (n busy mode blk : Nat) : State :=
  (((State.reset.setFld (chkPage 0) CHK_LEN_LEN n).setFld (chkPage 0) CHK_STATUS_BUSY busy).setFld (chkPage 0) CHK_CFG_MODE mode).setFld
    (chkPage 0) CHK_CFG_BLKLEN blk

theorem witness_CheckUnitsScan : chkOk 0 = true ∧ chkOk 387 = true ∧ (scanning 1 0 0 0).chkBusy 0 = false ∧ (scanning 1 0 0 0).chkOkCfg 0 = true
    ∧ (scanning 24 0 1 8).chkOkCfg 0 = true ∧ (scanning 0 0 0 0).chkOkCfg 0 = false ∧ (scanning (2 ^ 40 + 1) 0 0 0).chkOkCfg 0 = false
    ∧ (scanning 25 0 1 8).chkOkCfg 0 = false ∧ (scanning 1 1 0 0).chkBusy 0 = true := by and_intros <;> decide +kernel


theorem witness_RegisterWritesAct : siteOk 6143 = true ∧ dieOk 383 = true ∧ bit 0xFFFF000000000001#64 1 = false
    ∧ State.reset.hasFunc 3 63 = true ∧ ringOk 7 = true ∧ State.reset.part.hasStack 63 = true ∧ 0xFFFFF < 0x100000
    ∧ RegAddr.find (.spine 0 0xF1F8) = none ∧ (0xF1F8 < 0xF200) ∧ RegAddr.find (.spine 0 0xF218) = none ∧ 0xF218 ≠ 0xF310 := by
  and_intros <;> decide +kernel

theorem witness_StepTakesTheFrontCommand : ({ s0 with pending := [.nop 0] } : State).pending = [.nop 0] ∧ s0.pending = []
    ∧ s0.boot.resetPending = false ∧ s0.power.vpmIn = false ∧ (powered fw).boot.resetPending = false ∧ (powered fw).power.vpmIn = true := by
  and_intros <;> rfl

/-- A safe state with memory and registers that steps. -/
theorem witness_StepKeepsSafe : ({ host [] with pending := [.chkGo 0] } : State).safe = true
    ∧ (match step { host [] with pending := [.chkGo 0] } with | .next _ => true | _ => false) = true := by
  and_intros <;> decide +kernel

theorem witness_OtherCores : 1 ≠ 0 ∧ leads (exec (.halt 0) s0) (fun _ => true) = true := by and_intros <;> decide +kernel

theorem test_reg_write_zeroises : exec (.regWrite (.core 0 0x7F8) 1#64) s0 = exec (.zeroise 0) s0 := rfl

end Sys2Proof.Tests
end

section
/-! What an error's report to firmware and hosts leaves of the cores, of the core pages and of the panel's bytes. -/

namespace Sys2Proof.Machine

/-! ## Where registers lie -/

/-- The registers of site g's page lie below every other area of register space (R215). -/
theorem corePage_lt (g off : Nat) (hg : siteOk g = true) (ho : off < 0x1000) : corePage g + off < areaPage 1 0 := by
  have : g < 6144 := of_decide_eq_true hg
  unfold corePage areaPage
  omega

theorem domePage_ge (i : Nat) : areaPage 1 0 ≤ domePage i := by
  unfold domePage areaPage
  omega

theorem barPage_ge (p f : Nat) : areaPage 1 0 ≤ barPage p f := by
  unfold barPage areaPage
  omega

/-! ## Reports -/

/-- From s to t nothing has happened to cores but that some sequencers have been stopped, and no register of a core's page and
no byte of the panel has changed. -/
structure Reports (s t : State) : Prop where
  core : ∀ h, t.core h = s.core h ∨ t.core h = (s.core h).stop
  reg : ∀ k d, k < areaPage 1 0 → t.reg k d = s.reg k d
  wf : Memory.wf s.mem = true → Memory.wf t.mem = true
  bytes : KeepsPanelBytes s t

theorem Core.stop_stop (c : Core) : c.stop.stop = c.stop := by
  cases h : c.seq <;> simp [Core.stop, h]

variable {s t : State}

theorem Reports.of_eq (hc : t.cores = s.cores) (hr : t.regs = s.regs) (hm : t.mem = s.mem) : Reports s t where
  core h := .inl (by rw [State.core, State.core, hc])
  reg k d _ := by rw [State.reg, State.reg, hr]
  wf h := by rwa [hm]
  bytes _ z _ := by rw [hm]

theorem Reports.refl (s : State) : Reports s s := .of_eq rfl rfl rfl

theorem Reports.trans {u : State} (h : Reports s t) (k : Reports t u) : Reports s u where
  core i := by
    rcases k.core i with e | e <;> rcases h.core i with e' | e' <;> rw [e, e']
    · exact .inl rfl
    · exact .inr rfl
    · exact .inr rfl
    · exact .inr (Core.stop_stop _)
  reg i d hi := (k.reg i d hi).trans (h.reg i d hi)
  wf w := k.wf (h.wf w)
  bytes w z hz := (k.bytes (h.wf w) z hz).trans (h.bytes w z hz)

theorem Reports.then_eq (h : Reports s t) {u : State} (hc : u.cores = t.cores) (hr : u.regs = t.regs) (hm : u.mem = t.mem) :
    Reports s u := h.trans (.of_eq hc hr hm)

theorem Reports.setFunc (h : Reports s t) (p f : Nat) (x : Func) : Reports s (t.setFunc p f x) := h.then_eq rfl rfl rfl
theorem Reports.setPrt (h : Reports s t) (q : Nat) (x : Partition) : Reports s (t.setPrt q x) := h.then_eq rfl rfl rfl
theorem Reports.updHandle (h : Reports s t) (k : W32) (f : Handle → Handle) : Reports s (t.updHandle k f) :=
  h.then_eq rfl rfl rfl
theorem Reports.withHandles (h : Reports s t) (l : List Handle) : Reports s { t with handles := l } := h.then_eq rfl rfl rfl
theorem Reports.withPanel (h : Reports s t) (p : Panel) : Reports s { t with panel := p } := h.then_eq rfl rfl rfl
theorem Reports.withErr (h : Reports s t) (e : Errors) : Reports s { t with err := e } := h.then_eq rfl rfl rfl
theorem Reports.withBoot (h : Reports s t) (b : Boot) : Reports s { t with boot := b } := h.then_eq rfl rfl rfl

theorem Reports.foldl {α : Type} {f : State → α → State} (hf : ∀ s x, Reports s (f s x)) (l : List α) (h : Reports s t) :
    Reports s (l.foldl f t) := by
  induction l generalizing t with
  | nil => exact h
  | cons x r ih => exact ih (h.trans (hf t x))

theorem Reports.iter {f : Nat → State → State} (hf : ∀ i s, Reports s (f i s)) (n : Nat) (h : Reports s t) :
    Reports s (iter n f t) := by
  induction n with
  | zero => exact h
  | succ k ih => exact ih.trans (hf k _)

theorem Reports.setReg (h : Reports s t) {k : Nat} (hk : areaPage 1 0 ≤ k) (w : W64) : Reports s (t.setReg k w) :=
  h.trans { Reports.refl t with reg := fun i d hi => by rw [State.reg_setReg, if_neg (by omega)] }

theorem Reports.setFld (h : Reports s t) {page : Nat} (hp : areaPage 1 0 ≤ page) (F : Fld) (v : Nat) :
    Reports s (t.setFld page F v) := h.setReg (by omega) _

/-- Host memory lies above the panel's (log entry 4). -/
theorem Reports.hostWrite (h : Reports s t) (p a n v : Nat) : Reports s (t.hostWrite p a n v) :=
  h.trans { Reports.refl t with
    wf := memWrite_wf n _ _ v
    bytes := fun w z hz => memWrite_outside _ _ n v z w (.inl (by unfold hostBase; omega)) }

theorem Reports.stopCore (h : Reports s t) (g : Nat) : Reports s (t.updCore g Core.stop) :=
  h.trans { Reports.refl t with
    core := fun i => by
      rw [State.core_updCore]
      split
      · subst_vars; exact .inr rfl
      · exact .inl rfl }

theorem Reports.stopSites (h : Reports s t) (l : List Nat) : Reports s (t.stopSites l) :=
  h.foldl (fun s g => (Reports.refl s).stopCore g) l

/-! ## Rings -/

theorem Reports.msix (h : Reports s t) (p f v : Nat) : Reports s (t.msix p f v) := by
  unfold State.msix
  dsimp only
  split
  · exact h.setReg (Nat.le_add_right_of_le (barPage_ge p f)) _
  · exact h.setFunc ..

theorem Reports.cqPut (h : Reports s t) (p f : Nat) (e : Held) : Reports s (t.cqPut p f e) := by
  unfold State.cqPut
  extract_lets bp x size tail w0 v t1 wrap t2 t3 t4
  have h3 : Reports s t3 := ((h.hostWrite p _ 32 v).setFld (barPage_ge p f) _ _).setFunc ..
  have h4 : Reports s t4 := by
    unfold t4
    split
    · exact h3
    · exact h3.withHandles _
  split
  · exact (h4.setFunc ..).msix p f 1
  · exact h4

theorem Reports.cqFlushN (p f n : Nat) : ∀ {t : State}, Reports s t → Reports s (t.cqFlushN p f n) := by
  induction n with
  | zero => exact fun h => h
  | succ k ih =>
    intro t h
    rw [State.cqFlushN]
    split
    · exact h
    · split
      · exact ih ((h.setFunc ..).cqPut p f _)
      · exact h

theorem Reports.toCq (h : Reports s t) (p f : Nat) (e : Held) : Reports s (t.toCq p f e) :=
  .cqFlushN p f _ (h.setFunc ..)

theorem Reports.noticePart (h : Reports s t) (q kind a0 a1 a2 : Nat) : Reports s (t.noticePart q kind a0 a1 a2) := by
  unfold State.noticePart
  dsimp only
  split
  · exact h.toCq ..
  · split
    · exact h.setPrt ..
    · exact h

theorem Reports.capNotices (h : Reports s t) : Reports s t.capNotices := by
  unfold State.capNotices
  refine h.iter (fun i s => ?_) 256
  split
  · exact (Reports.refl s).toCq ..
  · exact .refl s

theorem Reports.capSync (h : Reports s t) (old : State) : Reports s (t.capSync old) := by
  unfold State.capSync
  split
  · exact h
  · exact (h.withPanel _).capNotices

theorem Reports.queueRecord (h : Reports s t) (k : W32) : Reports s (t.queueRecord k) := by
  unfold State.queueRecord
  split
  · exact h
  · dsimp only
    split_ifs
    · exact h
    · exact (h.updHandle ..).toCq ..
    · exact (h.updHandle ..).toCq ..
    · exact (h.updHandle ..).setPrt ..

theorem Reports.complete (h : Reports s t) (k : W32) (status : Nat) : Reports s (t.complete k status) :=
  (h.updHandle ..).queueRecord k

theorem Reports.completeAll (h : Reports s t) (status : Nat) : Reports s (t.completeAll status) :=
  (h.foldl (fun s (x : Handle) => (Reports.refl s).complete x.h status) t.handles).withBoot _

/-! ## The log -/

theorem Reports.logPut (h : Reports s t) (r : ErrRecord) : Reports s (t.logPut r) := by
  unfold State.logPut
  split
  · exact h
  · dsimp only
    split_ifs
    · exact h
    · exact (h.setFld (domePage_ge 4) _ _).setFld (domePage_ge 5) _ _
    · exact (h.hostWrite ..).setFld (barPage_ge _ _) _ _

theorem Reports.logRec (h : Reports s t) (r : RecSpec) : Reports s (t.logRec r) :=
  (((h.setFld (domePage_ge 4) _ _).setFld (domePage_ge 5) _ _).withErr _).logPut _

theorem Reports.logEvent (h : Reports s t) (src cls domain action part loc : Nat) (detail : Quad) :
    Reports s (t.logEvent src cls domain action part loc detail) := h.logRec _

theorem Reports.addScore (h : Reports s t) (k w : Nat) : Reports s (t.addScore k w) :=
  h.then_eq (by simp) (by simp) (by simp)

/-! ## Errors -/

theorem Reports.pausePart (h : Reports s t) (q : Nat) (cause : PauseCause) (reason : Option Nat) :
    Reports s (t.pausePart q cause reason) := by
  unfold State.pausePart
  dsimp only
  have h1 := fun x : Partition => (h.setPrt q x).stopSites ((t.setPrt q x).partSites q)
  split
  · split
    · exact h1 _
    · exact (h1 _).noticePart ..
  · exact h1 _

theorem Reports.stormBegin (h : Reports s t) : Reports s t.stormBegin := by
  unfold State.stormBegin
  split
  · exact h
  · refine Reports.foldl (fun s q => ?_) _ ((h.withErr _).logEvent ..)
    split
    · exact (Reports.refl s).pausePart ..
    · exact .refl s

theorem Reports.queueErr (h : Reports s t) (e : ErrItem) : Reports s (t.queueErr e) := by
  unfold State.queueErr
  dsimp only
  split
  · exact (h.stopSites _).withErr _
  · exact ((h.stopSites _).withErr _).stormBegin

theorem Reports.uncontained (h : Reports s t) (src loc : Nat) : Reports s (t.uncontained src loc) := by
  unfold State.uncontained
  dsimp only
  refine Reports.capSync ?_ t
  have h1 := fun b : Boot => ((h.logEvent src 2 4 7 127 loc quad0).completeAll stAbortPanel).withBoot b
  split
  · exact h1 _
  · refine (h1 _).foldl (fun s q => ?_) partIds
    split
    · exact (Reports.refl s).stopSites _
    · exact .refl s

theorem Reports.raiseErr (h : Reports s t) (e : ErrItem) : Reports s (t.raiseErr e) := by
  unfold State.raiseErr
  have h1 := fun x : Errors => h.withErr x
  dsimp only
  split
  · exact (h1 _).queueErr e
  · split
    · exact h1 _
    · split
      · split
        · exact (h1 _).uncontained ..
        · exact h1 _
      · split
        · exact h1 _
        · exact (h1 _).queueErr e

theorem Reports.siteLost (h : Reports s t) (g : Nat) : Reports s (t.siteLost g) := by
  unfold State.siteLost
  split
  · exact h
  · exact (h.addScore _ _).raiseErr _

theorem Reports.countFault (h : Reports s t) (g src a : Nat) : Reports s (t.countFault g src a) := by
  unfold State.countFault
  dsimp only
  split_ifs
  · exact h.siteLost g
  · exact h.then_eq rfl rfl rfl
  · exact h.siteLost g
  · exact h.then_eq rfl rfl rfl
  · exact h

end Sys2Proof.Machine
end

section
/-! What a fault of a core leaves (R125, R126). -/

namespace Sys2Proof.Machine

theorem setBits_word (w : W64) (v : Nat) : setBits w 63 0 v = BitVec.ofNat 64 v := by
  apply BitVec.eq_of_toNat_eq
  have h := w.isLt
  simp only [setBits, bits, BitVec.toNat_ofNat]
  omega

/-- Word 0 of a fault record holds the kind, the engine and the PC (R126). -/
theorem faultRec_w0 {kind engine : Nat} (hk : kind < 256) (he : engine < 16) (pc : Nat) (h : W32) (insn addr : W64) (opid : W32)
    (desc g : Nat) :
    bits (faultRec kind engine pc h insn addr opid desc g).w0 63 56 = kind
      ∧ bits (faultRec kind engine pc h insn addr opid desc g).w0 55 52 = engine
      ∧ bits (faultRec kind engine pc h insn addr opid desc g).w0 51 32 = pc % 2 ^ 20 := by
  have := h.isLt
  simp only [faultRec, bits, BitVec.toNat_ofNat]
  omega

theorem bits_word (w : W64) : bits w 63 0 = w.toNat := by
  have h := w.isLt
  unfold bits
  omega

/-- The core as a fault leaves it (R125). -/
def Core.faulted (c : Core) : Core := { c.discard with seq := .faulted }

variable (s : State) (g : Nat) (r : Quad)

@[simp] theorem State.setFaultRec_core (i : Nat) : (s.setFaultRec g r).core i = s.core i := rfl
@[simp] theorem State.setFaultRec_mem : (s.setFaultRec g r).mem = s.mem := rfl

theorem State.setFaultRec_w0 : (s.setFaultRec g r).reg (corePage g + 0x468) 0 = r.w0 := by
  simp [State.setFaultRec, State.reg_setFld, FAULT_REC_W, SEQ_STATUS_FAULT, setBits_word]

theorem State.setFaultRec_w1 : (s.setFaultRec g r).reg (corePage g + 0x470) 0 = r.w1 := by
  simp [State.setFaultRec, State.reg_setFld, FAULT_REC_W, SEQ_STATUS_FAULT, setBits_word]

theorem State.setFaultRec_w2 : (s.setFaultRec g r).reg (corePage g + 0x478) 0 = r.w2 := by
  simp [State.setFaultRec, State.reg_setFld, FAULT_REC_W, SEQ_STATUS_FAULT, setBits_word]

theorem State.setFaultRec_flag : (s.setFaultRec g r).flag (corePage g) SEQ_STATUS_FAULT = true := by
  rw [State.flag, State.setFaultRec, State.fld_setFld _ _ _ _ (by decide) (by decide)]
  rfl

/-- A core that is not IDLE, HALTED or FAULTED already becomes FAULTED with its work discarded and its record written; what
follows only reports it. -/
theorem State.coreFault_reports (hs : (s.core g).seq.startable = false) (kind engine pc : Nat) (insn addr : W64) (opid : W32)
    (desc : Nat) :
    Reports ((s.setCore g (s.core g).faulted).setFaultRec g
        (faultRec kind engine pc (s.core g).handle insn addr opid desc g))
      (s.coreFault g kind engine pc insn addr opid desc) := by
  have told := fun k w e src a => (((Reports.refl ((s.setCore g (s.core g).faulted).setFaultRec g
    (faultRec kind engine pc (s.core g).handle insn addr opid desc g))).addScore k w).raiseErr e).countFault g src a
  unfold State.coreFault
  dsimp only
  split
  · rename_i h; rw [h] at hs; cases hs
  · rename_i h; rw [h] at hs; cases hs
  · rename_i h; rw [h] at hs; cases hs
  · exact told ..

/-- The fault of a running sequencer leaves what R125 and R126 say. -/
theorem State.seqFault_seqFaults (hg : siteOk g = true) (hs : (s.core g).seq = .run) {kind : Nat} (hk : kind < 256)
    (insn addr : W64) : SeqFaults s g kind insn addr (s.seqFault g kind insn addr) := by
  have told := s.coreFault_reports g (by rw [hs]; rfl) kind engSeq (s.core g).pc insn addr 0#32 0
  have hcore : (s.seqFault g kind insn addr).core g = (s.core g).faulted := by
    have stopped : (s.core g).faulted.stop = (s.core g).faulted := rfl
    have h := told.core g
    rwa [State.setFaultRec_core, State.core_setCore_same, stopped, or_self] at h
  have hreg : ∀ off d, off < 0x1000 → (s.seqFault g kind insn addr).reg (corePage g + off) d = _ := fun off d ho =>
    told.reg _ d (corePage_lt g off hg ho)
  have h0 := hreg 0x468 0 (by decide)
  have h1 := hreg 0x470 0 (by decide)
  have h2 := hreg 0x478 0 (by decide)
  have hf := hreg SEQ_STATUS_FAULT.off SEQ_STATUS_FAULT.rst (by decide)
  rw [State.setFaultRec_w0] at h0
  rw [State.setFaultRec_w1] at h1
  rw [State.setFaultRec_w2] at h2
  obtain ⟨hkind, heng, hpc⟩ := faultRec_w0 hk (show engSeq < 16 by decide) (s.core g).pc (s.core g).handle insn addr 0#32 0 g
  rw [SeqFaults, hcore, h0, h1, h2]
  refine ⟨rfl, rfl, rfl, rfl, rfl, rfl, rfl, hkind, heng, hpc, rfl, rfl, ?_, told.bytes⟩
  rw [State.flag, State.fld, hf]
  exact State.setFaultRec_flag ..

end Sys2Proof.Machine
end

section
/-! How an instruction is issued and how it retires (R94, R95, R122). -/

namespace Sys2Proof.Machine

variable (s : State)

/-! ## The fetch -/

@[simp] theorem State.logPut_cores (r : ErrRecord) : (s.logPut r).cores = s.cores := by
  unfold State.logPut
  split
  · rfl
  · dsimp only
    split_ifs
    · rfl
    · rfl
    · exact (State.setFld_cores ..).trans (State.hostWrite_cores ..)

@[simp] theorem State.logRec_cores (r : RecSpec) : (s.logRec r).cores = s.cores := by
  simp [State.logRec]

theorem State.foldl_addScore_cores (l : List Nat) (w : Nat) : (l.foldl (fun s k => s.addScore k w) s).cores = s.cores := by
  induction l generalizing s with
  | nil => rfl
  | cons k r ih => rw [List.foldl_cons, ih, State.addScore_cores]

@[simp] theorem State.logCorrected_cores (src part loc : Nat) (addr : W64) (dies : List Nat) :
    (s.logCorrected src part loc addr dies).cores = s.cores := by
  unfold State.logCorrected
  dsimp only
  split
  · exact s.foldl_addScore_cores ..
  · rw [State.logRec_cores]
    exact s.foldl_addScore_cores ..

/-- The correction of a granule changes the scratchpad's tracker and pending write-backs and nothing else of a core (R192). -/
theorem State.corrected_core (g a port h : Nat) :
    (s.corrected g a port).core h = { s.core h with sp := ((s.corrected g a port).core h).sp } := by
  have same : ∀ {t : State} {c : Core}, t.cores = (s.setCore g c).cores → c = { s.core g with sp := c.sp } →
      t.core h = { s.core h with sp := (t.core h).sp } := by
    intro t c ht hc
    rw [State.core, ht, ← State.core, State.core_setCore]
    split
    · subst_vars; exact hc
    · rfl
  unfold State.corrected
  extract_lets
  split
  · exact same (by rw [State.logCorrected_cores, State.logCorrected_cores]; rfl) rfl
  · exact same (by rw [State.logCorrected_cores]; rfl) rfl

theorem State.correctAll_core (g a n port h : Nat) :
    (s.correctAll g a n port).core h = { s.core h with sp := ((s.correctAll g a n port).core h).sp } := by
  unfold State.correctAll
  generalize s.weakAt (spBase g + a) n 8 = l
  induction l generalizing s with
  | nil => rfl
  | cons q r ih =>
    rw [List.foldl_cons, ih, s.corrected_core]

theorem bufferedPc_eq (c : Core) : bufferedPc c = c.fetched c.pc := rfl

/-- The fetch changes the instruction buffer and the scratchpad's tracker, not the sequencer (R95, R192). -/
theorem fetched_core (g : Nat) : ∃ b x, (fetched s g).core g = { s.core g with ibuf := b, sp := x } := by
  unfold fetched
  split
  · exact ⟨_, _, State.core_setCore_same ..⟩
  · rw [State.core_updCore_same, State.correctAll_core]
    exact ⟨_, _, rfl⟩

@[simp] theorem fetched_seq (g : Nat) : ((fetched s g).core g).seq = (s.core g).seq := by
  obtain ⟨b, x, h⟩ := fetched_core s g
  rw [h]

/-! ## Issue -/

variable {s} {g : Nat} {w : W64} {f : State → State}

theorem issue_of_canIssue (h : CanIssue s g) : issue g w f s = .next (f (fetched s g)) := by
  obtain ⟨hg, hseq, hpc, hown, hfetch⟩ := h
  have hlim : ¬pcLimit ≤ (s.core g).pc := by unfold pcLimit; omega
  have hown' : s.owns g ownSeq (8 * (s.core g).pc) 8 = true := hown
  simp only [issue, fetched, hg, hseq, hlim, hown', Bool.not_true, Bool.false_eq_true, if_false, bne_self_eq_false]
  by_cases hb : (s.core g).ibuf.contains (s.core g).pc = true
  · rw [if_pos hb, if_pos hb]
    rfl
  · have hp : s.spPoison g (8 * (s.core g).pc) 8 = none := hfetch.resolve_left (by simpa using hb)
    rw [if_neg hb, if_neg hb, hp]
    dsimp only
    have hpc' : ((s.correctAll g (8 * (s.core g).pc) 8 1).core g).pc = (s.core g).pc := by rw [State.correctAll_core]
    rw [State.updCore, State.updCore, bufferedPc_eq, hpc']

/-- An instruction whose fetch succeeds answers what its meaning makes of the fetched state. -/
theorem answers_of_canIssue {i : Instr} {P : State → Prop} (h : CanIssue s g) (hi : exec i s = issue g w f s)
    (hP : P (f (fetched s g))) : Answers i s P := ⟨_, hi.trans (issue_of_canIssue h), hP⟩

/-- A fetch from a bank the sequencer does not own faults, whatever the instruction (R95, R127). -/
theorem answers_fetch_not_owned {i : Instr} (hi : exec i s = issue g w f s) (hg : siteOk g = true) (hs : (s.core g).seq = .run)
    (hpc : (s.core g).pc < 786432) (ho : s.owns g 0 (8 * (s.core g).pc) 8 = false) :
    Answers i s (SeqFaults s g 0x03 w (BitVec.ofNat 64 (8 * (s.core g).pc))) := by
  refine ⟨_, hi.trans ?_, s.seqFault_seqFaults g hg hs (by decide) w _⟩
  have hlim : ¬pcLimit ≤ (s.core g).pc := by unfold pcLimit; omega
  have ho' : s.owns g ownSeq (8 * (s.core g).pc) 8 = false := ho
  simp [issue, hg, hs, hlim, ho', fkBank]

/-! ## How an instruction ends -/

/-- RETIRED counts up, and nothing but core g differs. -/
theorem retires_retired (u : State) (c : Core) : Retires u ((u.setCore g c).retired g) g := by
  refine ⟨rfl, fun i hi => ?_, fun k d hk => ?_, ?_⟩
  · exact (State.core_setCore u g i c).trans (if_neg hi)
  · exact (State.reg_setFld ..).trans (if_neg hk)
  · simp [State.retired, State.addWrap, State.reg_setFld, State.fld, RETIRED_W, setBits_word, bits_word]
    bv_omega

@[simp] theorem State.retired_core (u : State) (i : Nat) : (u.retired g).core i = u.core i := rfl

theorem goes_retired (u : State) (pc : Nat) : Goes u g pc ((u.setCore g { u.core g with pc := pc }).retired g) :=
  ⟨retires_retired u _, by rw [State.retired_core, State.core_setCore_same]⟩

theorem goes_finish (u : State) : Goes u g ((u.core g).pc + 1) (u.finish g (u.core g)) := goes_retired u _

theorem stalls_stallAt (u : State) (r : Stall) : Stalls u g r (u.stallAt g r) := by
  refine ⟨rfl, fun h hh => ?_, ?_⟩
  · exact (State.core_updCore u g h _).trans (if_neg hh)
  · rw [State.stallAt, State.core_updCore_same]

theorem seqFaults_fetched (h : CanIssue s g) {kind : Nat} (hk : kind < 256) (addr : W64) :
    SeqFaults (fetched s g) g kind w addr ((fetched s g).seqFault g kind w addr) := by
  obtain ⟨hg, hseq, -⟩ := h
  exact (fetched s g).seqFault_seqFaults g hg (by rw [fetched_seq, hseq]) hk w addr

theorem State.jump_inside (u : State) (c : Core) {t : W64} (ht : t.toNat < 786432) :
    u.jump g w c t = (u.setCore g { c with pc := t.toNat }).retired g := if_pos ht

theorem goes_jump (u : State) {t : W64} (ht : t.toNat < 786432) : Goes u g t.toNat (u.jump g w (u.core g) t) := by
  rw [State.jump_inside _ _ ht]
  exact goes_retired u _

/-- A target outside the scratchpad faults at the jump (R100). -/
theorem seqFaults_jump (h : CanIssue s g) (c : Core) {t : W64} (ht : 786432 ≤ t.toNat) :
    SeqFaults (fetched s g) g 0x02 w (t <<< 3) ((fetched s g).jump g w c t) := by
  have out : (fetched s g).jump g w c t = (fetched s g).seqFault g 0x02 w (t <<< 3) := if_neg (Nat.not_lt.2 ht)
  rw [out]
  exact seqFaults_fetched h (by decide) _

theorem Core.reg_setC (c : Core) (a i : Nat) (v : W64) : (c.setC a v).reg i = if i = a ∧ i ≠ 0 then v else c.reg i := by
  unfold Core.setC Core.reg
  by_cases ha : a = 0 <;> by_cases hi : i = 0 <;> simp [ha, hi, Tab.getD_set]

end Sys2Proof.Machine
end

section
/-! Branches and jumps (R98, R100). -/

namespace Sys2Proof.Machine

/-! ## What the instructions mean -/

section
variable (g : Nat) (a b : BitVec 5) (imm : W32) (s : State)

theorem exec_nop : exec (.nop g) s = issue g (encR 0x00 0#5 0#5 0#5) (fun u => u.finish g (u.core g)) s := rfl

theorem exec_beq : exec (.beq g a b imm) s = brInsn 0x30 g a b imm (fun x y => x == y) s := rfl
theorem exec_bne : exec (.bne g a b imm) s = brInsn 0x31 g a b imm (fun x y => x != y) s := rfl
theorem exec_blt : exec (.blt g a b imm) s = brInsn 0x32 g a b imm (fun x y => x.slt y) s := rfl
theorem exec_bge : exec (.bge g a b imm) s = brInsn 0x33 g a b imm (fun x y => !x.slt y) s := rfl
theorem exec_bltu : exec (.bltu g a b imm) s = brInsn 0x34 g a b imm (fun x y => x.ult y) s := rfl
theorem exec_bgeu : exec (.bgeu g a b imm) s = brInsn 0x35 g a b imm (fun x y => !x.ult y) s := rfl

theorem exec_jal : exec (.jal g a imm) s = issue g (encI 0x36 a 0#5 imm) (fun u =>
    u.jump g (encI 0x36 a 0#5 imm) ((u.core g).setC a.toNat (BitVec.ofNat 64 ((u.core g).pc + 1)))
      (BitVec.ofNat 64 (u.core g).pc + sext imm)) s := rfl

theorem exec_jalr : exec (.jalr g a b imm) s = issue g (encI 0x37 a b imm) (fun u =>
    u.jump g (encI 0x37 a b imm) ((u.core g).setC a.toNat (BitVec.ofNat 64 ((u.core g).pc + 1)))
      (operandBI (u.core g) b imm)) s := rfl

theorem exec_ld (x : BitVec 9) : exec (.ld g a b x imm) s = issue g (encInsn 0x40 a b 0#5 x imm) (fun u =>
    if 8 ≤ x.toNat then u.seqFault g fkIllegal (encInsn 0x40 a b 0#5 x imm) 0#64
    else u.seqRead g (encInsn 0x40 a b 0#5 x imm) (operandBI (u.core g) b imm).toNat (memSize x) (fun r =>
      r.finish g ((r.core g).setC a.toNat
        (loadExt (memSize x) (r.spVal g (operandBI (u.core g) b imm).toNat (memSize x)) (x.getLsbD 2))))) s := rfl

theorem exec_halt : exec (.halt g) s = issue g (encR 0x01 0#5 0#5 0#5) (fun u =>
    if u.fenced g 0x1F then u.haltGo g else u.stallAt g .haltFence) s := rfl

end

/-! ## Branches -/

variable {s : State} {g : Nat} {a b : BitVec 5} {imm : W32} {i : Instr}

/-- A branch whose condition is p goes to its target when p holds, and on when not; a target outside the scratchpad faults. -/
theorem branch_answers (h : CanIssue s g) {op : Nat} {f : W64 → W64 → Bool} {p : Prop} (hi : exec i s = brInsn op g a b imm f s)
    (hp : f (((fetched s g).core g).reg a.toNat) (((fetched s g).core g).reg b.toNat) = true ↔ p) :
    let u := fetched s g
    let t := BitVec.ofNat 64 (u.core g).pc + imm.signExtend 64
    (¬p → Answers i s (Goes u g ((u.core g).pc + 1)))
      ∧ (p → t.toNat < 786432 → Answers i s (Goes u g t.toNat))
      ∧ (p → 786432 ≤ t.toNat → Answers i s (SeqFaults u g 0x02 (encI op a b imm) (t <<< 3))) := by
  refine ⟨fun hn => ?_, fun hy ht => ?_, fun hy ht => ?_⟩ <;> refine answers_of_canIssue h hi ?_
  · rw [if_neg (mt hp.1 hn)]
    exact goes_finish _
  · rw [if_pos (hp.2 hy)]
    exact goes_jump _ ht
  · rw [if_pos (hp.2 hy)]
    exact seqFaults_jump h _ ht

/-! ## Jumps -/

/-- Between u and r, site g has left the address of the next instruction in c[a] and gone to t. -/
def Links (u : State) (g : Nat) (a : BitVec 5) (t : W64) (r : State) : Prop :=
  Retires u r g ∧ (r.core g).pc = t.toNat
    ∧ ∀ i, (r.core g).reg i = if i = a.toNat ∧ i ≠ 0 then BitVec.ofNat 64 ((u.core g).pc + 1) else (u.core g).reg i

theorem links_jump (u : State) (g : Nat) (a : BitVec 5) (w : W64) {t : W64} (ht : t.toNat < 786432) :
    Links u g a t (u.jump g w ((u.core g).setC a.toNat (BitVec.ofNat 64 ((u.core g).pc + 1))) t) := by
  rw [State.jump_inside _ _ ht]
  refine ⟨retires_retired _ _, ?_, fun i => ?_⟩ <;> rw [State.retired_core, State.core_setCore_same]
  exact Core.reg_setC _ _ _ _

/-- Settles O3: each branch by its condition, each jump by its target, and the fetch by the bank's owner. -/
theorem branchesAndJumps : Obligations.BranchesAndJumps := by
  unfold Obligations.BranchesAndJumps
  intro s g a b imm h
  refine ⟨branch_answers h (exec_beq ..) beq_iff_eq, branch_answers h (exec_bne ..) bne_iff_ne,
    branch_answers h (exec_blt ..) BitVec.slt_iff_toInt_lt, branch_answers h (exec_bge ..) (by simp [BitVec.slt]),
    branch_answers h (exec_bltu ..) BitVec.ult_iff_toNat_lt, branch_answers h (exec_bgeu ..) (by simp [BitVec.ult]),
    fun ht => answers_of_canIssue h (exec_jal ..) (links_jump _ g a _ ht),
    fun ht => answers_of_canIssue h (exec_jal ..) (seqFaults_jump h _ ht),
    fun ht => answers_of_canIssue h (exec_jalr ..) (links_jump _ g a _ ht),
    fun ht => answers_of_canIssue h (exec_jalr ..) (seqFaults_jump h _ ht), fun w hrun hpc hown => ?_⟩
  have faults : ∀ {i k f}, exec i w = issue g k f w → Answers i w (SeqFaults w g 0x03 k _) := fun hi =>
    answers_fetch_not_owned hi h.1 hrun hpc hown
  exact ⟨faults (exec_nop ..), faults (exec_jal ..), faults (exec_ld ..), faults (exec_halt ..)⟩

end Sys2Proof.Machine
end

section
/-! FENCE (R115). -/

namespace Sys2Proof.Machine

theorem exec_fence (g : Nat) (x : BitVec 9) (s : State) : exec (.fence g x) s = issue g (encInsn 0x03 0#5 0#5 0#5 x 0#32)
    (fun u => if 32 ≤ x.toNat then u.seqFault g fkIllegal (encInsn 0x03 0#5 0#5 0#5 x 0#32) 0#64
      else if u.fenced g x.toNat then u.finish g (u.core g) else u.stallAt g (.fence x.toNat)) s := rfl

theorem exec_seqStallEnd {g : Nat} (hg : siteOk g = true) (s : State) : exec (.seqStallEnd g) s = .next (s.stallEnd g) := if_pos hg

theorem State.stallEnd_fence {s : State} {g x : Nat} (hs : (s.core g).seq = .wait) (hr : (s.core g).stall = some (.fence x)) :
    s.stallEnd g = if s.fenced g x then s.unstall g else s := by
  rw [State.stallEnd, hs, hr]

/-- Bit i of X is clear. -/
theorem bit_clear_iff (x : BitVec 9) (i : Nat) : (x.toNat / 2 ^ i % 2 == 0) = true ↔ ¬x.getLsbD i = true := by
  rw [BitVec.getLsbD, Nat.testBit_eq_decide_div_mod_eq]
  simp

/-- The model's test of X is the condition of R115. -/
theorem State.fenced_iff (s : State) (g : Nat) (x : BitVec 9) : s.fenced g x.toNat = true ↔ FenceDone s g x := by
  have clear := bit_clear_iff x
  have clear0 : (x.toNat % 2 == 0) = true ↔ _ := Nat.div_one x.toNat ▸ clear 0
  have clear1 : (x.toNat / 2 % 2 == 0) = true ↔ _ := clear 1
  have clear2 : (x.toNat / 4 % 2 == 0) = true ↔ _ := clear 2
  have clear3 : (x.toNat / 8 % 2 == 0) = true ↔ _ := clear 3
  have clear4 : (x.toNat / 16 % 2 == 0) = true ↔ _ := clear 4
  simp only [State.fenced, FenceDone, Dma.running, Bool.and_eq_true, Bool.or_eq_true, clear0, clear1, clear2, clear3, clear4,
    ← imp_iff_not_or, and_assoc]
  simp [List.filter_eq_nil_iff]

/-- Settles O7: at the fence and stalled at it, by the model's test of X. -/
theorem fenceWaitsForSelectedWork : Obligations.FenceWaitsForSelectedWork := by
  unfold Obligations.FenceWaitsForSelectedWork
  intro s g x
  constructor
  case left =>
    intro h
    refine ⟨fun hx hd => ?_, fun hx hd => ?_, fun hx => ?_, ?_⟩
    · refine answers_of_canIssue h (exec_fence ..) ?_
      rw [if_neg (by omega), if_pos ((State.fenced_iff ..).2 hd)]
      exact goes_finish _
    · refine answers_of_canIssue h (exec_fence ..) ?_
      rw [if_neg (by omega), if_neg (mt (State.fenced_iff ..).1 hd)]
      exact stalls_stallAt _ _
    · refine answers_of_canIssue h (exec_fence ..) ?_
      rw [if_pos hx]
      exact seqFaults_fetched h (by decide) _
    · have hnop := (exec_nop g s).trans (issue_of_canIssue h)
      have hfence := (exec_fence g 0#9 s).trans (issue_of_canIssue h)
      have hd : (fetched s g).fenced g (0#9).toNat = true := rfl
      rw [if_neg (by decide), if_pos hd] at hfence
      exact ⟨_, hfence, hnop⟩
  case right =>
    intro hg hs hr
    rw [exec_seqStallEnd hg]
    refine ⟨fun hd => ?_, fun hd => ?_⟩
    · refine ⟨_, exec_seqStallEnd hg s, ?_⟩
      rw [State.stallEnd_fence hs hr, if_pos ((State.fenced_iff ..).2 hd)]
      exact ⟨retires_retired s _, by rw [State.unstall, State.finish, State.retired_core, State.core_setCore_same]⟩
    · rw [State.stallEnd_fence hs hr, if_neg (mt (State.fenced_iff ..).1 hd)]

end Sys2Proof.Machine
end

section
/-! Thermal cycles (R377). -/

namespace Sys2Proof.Machine

/-! ## The Almanac -/

/-- An entry is written to both copies alike, so it is what is read, whatever stood there before (R395). -/
@[simp] theorem State.almVal_setAlm_same (s : State) (k v dflt : Nat) : (s.setAlm k v).almVal k dflt = v := by
  simp [State.almVal, State.almFind, State.setAlm]

theorem State.almVal_setAlm_other (s : State) {k i : Nat} (h : i ≠ k) (v dflt : Nat) :
    (s.setAlm k v).almVal i dflt = s.almVal i dflt := by
  simp only [State.almVal, State.almFind, State.setAlm, Tab.find_set_other _ _ h]

theorem almKey_inj (cls : Nat) {i j : Nat} : almKey cls i = almKey cls j ↔ i = j := Nat.add_left_cancel_iff

/-! ## What is counted of a die -/

/-- The readings of die d with its cycles in the Almanac. -/
def State.cycleCount (s : State) (d : Nat) : Sensed × Nat := (s.sens d, s.almVal (almKey almCycles d) 0)

theorem State.cycleCount_setSens (s : State) (d e : Nat) (x : Sensed) :
    (s.setSens d x).cycleCount e = if e = d then (x, (s.cycleCount d).2) else s.cycleCount e := by
  have hx : (s.setSens d x).sens e = if e = d then x else s.sens e := Tab.getD_set s.therm.unit d e x _
  have hn : (s.setSens d x).almVal (almKey almCycles e) 0 = s.almVal (almKey almCycles e) 0 := rfl
  rw [State.cycleCount, hx, hn]
  split
  · subst_vars; rfl
  · rfl

theorem State.cycleCount_setAlm (s : State) (d e n : Nat) :
    (s.setAlm (almKey almCycles d) n).cycleCount e = if e = d then ((s.cycleCount d).1, n) else s.cycleCount e := by
  have hx : (s.setAlm (almKey almCycles d) n).sens e = s.sens e := rfl
  rw [State.cycleCount, hx]
  split
  · subst_vars; rw [State.almVal_setAlm_same]; rfl
  · rw [State.almVal_setAlm_other s (mt (almKey_inj almCycles).1 ‹_›)]; rfl

@[simp] theorem State.cycleCount_addSat (s : State) (k : Nat) (F : Fld) (n d : Nat) :
    (s.addSat k F n).cycleCount d = s.cycleCount d := rfl

/-- The rule of R377 for a die's readings and its cycles; a die with no readings has no temperature. -/
def countCycle (x : Sensed × Nat) : Sensed × Nat :=
  if x.1.reads = [] then x else (x.1.cycle.1, if x.1.cycle.2 = true then x.2 + 1 else x.2)

theorem countCycle_of_reads {x : Sensed × Nat} (h : x.1.reads ≠ []) :
    countCycle x = (x.1.cycle.1, if x.1.cycle.2 = true then x.2 + 1 else x.2) := if_neg h

/-- Going down, the lowest temperature is kept, and no cycle ends. -/
theorem Sensed.cycle_down {x : Sensed} (h : x.dirUp = false) :
    x.cycle.1.lo = min x.lo x.value ∧ x.cycle.2 = false
      ∧ (320 < x.value - x.cycle.1.lo → x.cycle.1.dirUp = true ∧ x.cycle.1.hi = x.value)
      ∧ (x.value - x.cycle.1.lo ≤ 320 → x.cycle.1.dirUp = false ∧ x.cycle.1.hi = x.hi) := by
  have hx : x.cycle = if 320 < x.value - min x.lo x.value
      then ({ x with lo := min x.lo x.value, dirUp := true, hi := x.value }, false)
      else ({ x with lo := min x.lo x.value }, false) := by
    simp only [Sensed.cycle, h, Bool.not_false, if_true]
  rw [hx]
  split
  · next rise => exact ⟨rfl, rfl, fun _ => ⟨rfl, rfl⟩, fun still => absurd rise (Int.not_lt.2 still)⟩
  · next still => exact ⟨rfl, rfl, fun rise => absurd rise still, fun _ => ⟨h, rfl⟩⟩

/-- Going up, the highest temperature is kept, and the fall that turns the die down ends a cycle. -/
theorem Sensed.cycle_up {x : Sensed} (h : x.dirUp = true) :
    x.cycle.1.hi = max x.hi x.value
      ∧ (320 < x.cycle.1.hi - x.value → x.cycle.1.dirUp = false ∧ x.cycle.1.lo = x.value ∧ x.cycle.2 = true)
      ∧ (x.cycle.1.hi - x.value ≤ 320 → x.cycle.1.dirUp = true ∧ x.cycle.1.lo = x.lo ∧ x.cycle.2 = false) := by
  have hx : x.cycle = if 320 < max x.hi x.value - x.value
      then ({ x with hi := max x.hi x.value, dirUp := false, lo := x.value }, true)
      else ({ x with hi := max x.hi x.value }, false) := by
    simp only [Sensed.cycle, h, Bool.not_true, Bool.false_eq_true, if_false]
  rw [hx]
  split
  · next fall => exact ⟨rfl, fun _ => ⟨rfl, rfl, rfl⟩, fun still => absurd fall (Int.not_lt.2 still)⟩
  · next still => exact ⟨rfl, fun fall => absurd fall still, fun _ => ⟨h, rfl, rfl⟩⟩

/-! ## The second's work -/

/-- The second's work for die d. -/
def State.countDie (s : State) (d : Nat) : State :=
  if (s.sens d).reads.isEmpty then s
  else
    let t := s.setSens d (s.sens d).cycle.1
    if (s.sens d).cycle.2 then
      (t.addSat (spinePage d) TH_STATUS_CYCLES 1).setAlm (almKey almCycles d) (t.almVal (almKey almCycles d) 0 + 1)
    else t

theorem exec_thermalCycleCount {s : State} (h : s.fwRuns = true) :
    exec .thermalCycleCount s = .next ((List.range 384).foldl State.countDie s) := by
  change execThermalCycleCount s = _
  rw [execThermalCycleCount, h]
  rfl

theorem State.countDie_frame (s : State) (d : Nat) : (s.countDie d).mem = s.mem ∧ (s.countDie d).cores = s.cores := by
  unfold State.countDie
  dsimp only
  split_ifs <;> exact ⟨rfl, rfl⟩

theorem State.cycleCount_countDie (s : State) (d e : Nat) :
    (s.countDie d).cycleCount e = if e = d then countCycle (s.cycleCount d) else s.cycleCount e := by
  have hx : (s.cycleCount d).1 = s.sens d := rfl
  have hn : ∀ x, (s.setSens d x).almVal (almKey almCycles d) 0 = (s.cycleCount d).2 := fun _ => rfl
  rw [countCycle, hx]
  unfold State.countDie
  by_cases hr : (s.sens d).reads = []
  · simp only [hr, List.isEmpty_nil, if_true]
    split
    · subst_vars; rfl
    · rfl
  · have hr' : (s.sens d).reads.isEmpty = false := List.isEmpty_eq_false_iff.2 hr
    by_cases hc : (s.sens d).cycle.2 = true
    · simp only [hr, hr', hc, hn, Bool.false_eq_true, if_true, if_false, State.cycleCount_setAlm,
        State.cycleCount_addSat, State.cycleCount_setSens]
      split <;> rfl
    · simp only [hr, hr', hc, Bool.false_eq_true, if_false, State.cycleCount_setSens]

/-- Each die is counted once, and by its own readings alone. -/
theorem State.cycleCount_foldl_countDie (d : Nat) (l : List Nat) (hl : l.Nodup) (s : State) :
    (l.foldl State.countDie s).cycleCount d = if d ∈ l then countCycle (s.cycleCount d) else s.cycleCount d := by
  induction l generalizing s with
  | nil => rfl
  | cons e r ih =>
    obtain ⟨he, hr⟩ := List.nodup_cons.1 hl
    rw [List.foldl_cons, ih hr, State.cycleCount_countDie]
    by_cases hd : d = e
    · subst hd
      simp [he]
    · simp [hd]

theorem State.foldl_countDie_frame (l : List Nat) (s : State) :
    (l.foldl State.countDie s).mem = s.mem ∧ (l.foldl State.countDie s).cores = s.cores :=
  List.foldlRecOn l State.countDie (motive := fun t => t.mem = s.mem ∧ t.cores = s.cores) ⟨rfl, rfl⟩ fun t ⟨hm, hc⟩ d _ =>
    ⟨(t.countDie_frame d).1.trans hm, (t.countDie_frame d).2.trans hc⟩

/-- What the second's work comes to for a die with readings. -/
theorem State.counted_die (s : State) {d : Nat} (hd : d < 384) (hr : (s.sens d).reads ≠ []) :
    let t := (List.range 384).foldl State.countDie s
    t.sens d = (s.sens d).cycle.1 ∧ t.almVal (almKey almCycles d) 0
      = if (s.sens d).cycle.2 = true then s.almVal (almKey almCycles d) 0 + 1 else s.almVal (almKey almCycles d) 0 := by
  have counted := State.cycleCount_foldl_countDie d (List.range 384) List.nodup_range s
  rw [if_pos (List.mem_range.2 hd), countCycle_of_reads (x := s.cycleCount d) hr] at counted
  exact Prod.mk.inj counted

/-- Settles O38: each die is counted by its own readings alone, a rule with a case per direction. -/
theorem thermalCyclesAreCounted : Obligations.ThermalCyclesAreCounted := by
  unfold Obligations.ThermalCyclesAreCounted
  intro s hs
  obtain ⟨hm, hc⟩ := State.foldl_countDie_frame (List.range 384) s
  refine ⟨_, exec_thermalCycleCount hs, hm, hc, fun d hd hr => ?_⟩
  obtain ⟨hy, hn⟩ := s.counted_die hd hr
  dsimp only
  rw [hy, hn]
  constructor
  case left =>
    intro down
    obtain ⟨hlo, none_ends, rise, still⟩ := Sensed.cycle_down down
    exact ⟨hlo, if_neg (Bool.eq_false_iff.1 none_ends), rise, still⟩
  case right =>
    intro up
    obtain ⟨hhi, fall, still⟩ := Sensed.cycle_up up
    refine ⟨hhi, fun h => ?_, fun h => ?_⟩
    · obtain ⟨turned, hlo, ends⟩ := fall h
      exact ⟨turned, hlo, if_pos ends⟩
    · obtain ⟨goes_on, hlo, none_ends⟩ := still h
      exact ⟨goes_on, hlo, if_neg (Bool.eq_false_iff.1 none_ends)⟩

end Sys2Proof.Machine
end
